-- ==== Sys2Proof/Word.lean ====
section
/-! DEFINITION. The two widths every rule speaks of: the byte of a buffer or a message (spec/00_scope.md R15) and the
32-bit word of a register access (spec/20_memory.md R62). -/

namespace Sys2Proof

/-- One byte of a buffer, a message or a payload (R15). -/
abbrev Byte := BitVec 8

/-- One whole register access (R62); also the format `CMD` of a command word (R80). -/
abbrev Word := BitVec 32

end Sys2Proof
end

