-- ==== Sys2Proof/Config.lean ====
section
/-! DEFINITION. What an implementation fixes (spec/00_scope.md R12, R13) and the one free value of the spec: what a
byte of buffer storage holds that nothing has written since `Reset` (spec/70_reset_and_hazards.md R301). -/

namespace Sys2Proof

/-- The parameters "the model takes as arguments" (R12) that some rule reads. `P_TICK_PERIOD`, `P_BASE` and
`P_IRQ_LINE` are read by no rule and are not here (log 14). Their legal ranges are `Params.wf`. -/
structure Params where
  /-- `P_MAX_MSG`: bytes of one transport message, and of the buffers `MSG`, `DATA` and `TXMSG`. -/
  maxMsg : Nat
  /-- `P_PAYLOAD_BYTES`: bytes of the buffer `PAYLOAD`. -/
  payloadBytes : Nat
  /-- `P_MAX_CHUNKS`: the number of reassembly slots. -/
  maxChunks : Nat
  deriving DecidableEq, Repr

/-- The buffers that have storage of their own (spec/20_memory.md R61; `BITMAP` is a view, R52). -/
inductive Buffer where
  | payload | msg | data | out | txmsg
  deriving DecidableEq, Repr

/-- The parameters `State.reset` carries: those of the spec's own vectors (R12, last column). DESIGN CHOICE: the spec
leaves them open; no step changes them and every statement is made for all of them (log 4). Unsafe for a claim about
`State.reset` alone. -/
def Config.params : Params := { maxMsg := 255, payloadBytes := 1024, maxChunks := 16 }

/-- `SLOT_BYTES` of R13: the bytes one reassembly slot holds. -/
def Config.slotBytes : Nat := 255

/-- The free value of R301: what byte `a` of buffer `b` holds while nothing has written it, "a draw made at `Reset` that
stays fixed until written". The first argument counts the `Reset`s, so each `Reset` has a draw of its own (log 5).
DESIGN CHOICE: no argument names the block, so two blocks of a `System` with equal `State.resets` read the same unwritten
bytes, where R301 says only that they are unspecified (log 21). Unsafe for a claim that compares two blocks' unwritten
bytes. -/
opaque Config.resetDraw : Nat → Buffer → Nat → BitVec 8

end Sys2Proof
end

