-- ==== Sys2Proof/Syntax.lean ====
section
/-! DEFINITION. The commands: one constructor per row of spec/opcode_table.json (spec/30_encoding.md R81). "A command
has no operand fields" (R80), so no constructor has an argument. -/

namespace Sys2Proof

/-- The 13 commands of the opcode map (R81), in the table's order. -/
inductive Instr where
  /-- `NOP`, 0x00 (spec/44_control.md R240). -/
  | nop
  /-- `START_SEND`, 0x01 (spec/42_sender.md R160). -/
  | startSend
  /-- `START_RECV`, 0x02 (spec/43_receiver.md R200). -/
  | startRecv
  /-- `ABORT`, 0x03 (spec/44_control.md R241). -/
  | abort
  /-- `CLEAR`, 0x04 (spec/44_control.md R242). -/
  | clear
  /-- `OP_CHECKSUM`, 0x10 (spec/40_codec.md R120). -/
  | opChecksum
  /-- `OP_ENCODE`, 0x11 (spec/40_codec.md R121). -/
  | opEncode
  /-- `OP_DECODE`, 0x12 (spec/40_codec.md R122). -/
  | opDecode
  /-- `OP_FRAGMENT`, 0x13 (spec/40_codec.md R123). -/
  | opFragment
  /-- `OP_ENC_ACK`, 0x14 (spec/41_ack.md R146). -/
  | opEncAck
  /-- `OP_DEC_ACK`, 0x15 (spec/41_ack.md R147). -/
  | opDecAck
  /-- `OP_ENC_SENTINEL`, 0x16 (spec/41_ack.md R148). -/
  | opEncSentinel
  /-- `OP_IS_SENTINEL`, 0x17 (spec/41_ack.md R149). -/
  | opIsSentinel
  deriving DecidableEq, Repr

end Sys2Proof
end

