-- ==== Sys2Proof/WellFormed.lean ====
section
/-! DEFINITION. Well-formedness of what the model takes from outside: the parameters (spec/00_scope.md R12) and a
command (spec/30_encoding.md R80). -/

namespace Sys2Proof

/-- The legal ranges of the parameters (R12). -/
def Params.wf (p : Params) : Bool :=
  decide (16 ≤ p.maxMsg) && decide (p.maxMsg ≤ 65535) &&
  decide (1 ≤ p.payloadBytes) && decide (p.payloadBytes ≤ 16777215) &&
  decide (1 ≤ p.maxChunks) && decide (p.maxChunks ≤ 65535)

/-- Every command is well formed: "a command has no operand fields" (R80), so there is nothing to be out of range. -/
def Instr.wf : Instr → Bool
  | .nop | .startSend | .startRecv | .abort | .clear => true
  | .opChecksum | .opEncode | .opDecode | .opFragment => true
  | .opEncAck | .opDecAck | .opEncSentinel | .opIsSentinel => true

end Sys2Proof
end

