-- ==== Sys2Proof/Decode.lean ====
section
/-! DEFINITION. The command word `CMD` (spec/30_encoding.md R80), the opcode map (R81), the decoder with its named
rejections (R82), and the encoder. A command arrives whole as one 32-bit register write, so its words have no byte
order to choose (spec/20_memory.md R68, R74; log 16). -/

namespace Sys2Proof

/-- Why a command word is no command (R82). -/
inductive DecodeError where
  /-- "`v[31:8] ≠ 0`". -/
  | reservedBitsSet
  /-- "`v[7:0]` is unassigned". -/
  | unassignedOpcode
  deriving DecidableEq, Repr

/-- The OPCODE of each command (R81). -/
def Instr.opcode : Instr → BitVec 8
  | .nop => 0x00
  | .startSend => 0x01
  | .startRecv => 0x02
  | .abort => 0x03
  | .clear => 0x04
  | .opChecksum => 0x10
  | .opEncode => 0x11
  | .opDecode => 0x12
  | .opFragment => 0x13
  | .opEncAck => 0x14
  | .opDecAck => 0x15
  | .opEncSentinel => 0x16
  | .opIsSentinel => 0x17

/-- The command of an OPCODE; every OPCODE the map of R81 does not list is unassigned. -/
def decodeOpcode (op : BitVec 8) : Option Instr :=
  match op.toNat with
  | 0x00 => some .nop
  | 0x01 => some .startSend
  | 0x02 => some .startRecv
  | 0x03 => some .abort
  | 0x04 => some .clear
  | 0x10 => some .opChecksum
  | 0x11 => some .opEncode
  | 0x12 => some .opDecode
  | 0x13 => some .opFragment
  | 0x14 => some .opEncAck
  | 0x15 => some .opDecAck
  | 0x16 => some .opEncSentinel
  | 0x17 => some .opIsSentinel
  | _ => none

/-- The command a word written to `CMD` encodes, or why it encodes none (R80 to R82). -/
def decodeWord (v : Word) : Except DecodeError Instr :=
  if v.extractLsb' 8 24 ≠ 0#24 then .error .reservedBitsSet
  else
    match decodeOpcode (v.extractLsb' 0 8) with
    | none => .error .unassignedOpcode
    | some i => .ok i

/-- The command the decoder reads from a word, if any. -/
def decodeTableWord (nbits w : Nat) : Option Instr :=
  if nbits ≤ 32 then
    match decodeWord (BitVec.ofNat 32 (w % 2 ^ nbits)) with
    | .ok i => some i
    | .error _ => none
  else none

/-- The word of a command: its OPCODE in bits 7:0, bits 31:8 zero (R80). -/
def encode (i : Instr) : Word := i.opcode.setWidth 32

end Sys2Proof
end

