-- ==== Sys2Proof/Machine/State.lean ====
section
/-! DEFINITION. All the state the spec gives the block (spec/10_state.md R20 to R52) as plain data, the events that
change it (spec/00_scope.md R9), how a step can stop, and the state after `Reset` (spec/70_reset_and_hazards.md R300).

A register is held by its fields, under the spec's names; a whole register is put together where the host reads it
(Machine/HostPort.lean). A field whose values the spec names one by one, and to which no rule writes another
(spec/93_implementation_defined.md section 5), is an inductive type (log 13); its number is its `code`
(Machine/Operands.lean). -/

namespace Sys2Proof.Machine

/-- `STATUS.STATE` (R28): where the engine is in its protocol; "the block has no program counter" (R29). -/
inductive EngineState where
  /-- 0: no session. -/
  | idle
  /-- 1: the sender offers frame `TX_CHUNK`. -/
  | sSend
  /-- 2: the sender waits for an acknowledgement of frame `TX_CHUNK`. -/
  | sWait
  /-- 3: the sender offers the sentinel. -/
  | sEnd
  /-- 4: the receiver waits for a message. -/
  | rListen
  /-- 5: the receiver offers an acknowledgement. -/
  | rAck
  deriving DecidableEq, Repr

/-- `RESULT.CODE` (R30). -/
inductive ResultCode where
  | none | sendSuccess | sendRetryExhausted | sendSentinelTxFail
  | recvAssembled | recvIncomplete | cancelled | cfgError
  deriving DecidableEq, Repr

/-- `TX_RETRY.TX_LAST`: what ended the last attempt (R33). -/
inductive TxLast where
  | none | acked | timeout | nak | unmatched | notAnAck | txFail
  deriving DecidableEq, Repr

/-- `RX_LAST.EVENT`: what the receiver did with the last message it took (R39). -/
inductive RxEvent where
  | none | stored | malformed | csumMismatch | rejected | sentinel
  deriving DecidableEq, Repr

/-- `OP_STATUS.CODE` (R40). -/
inductive OpCode where
  | none | ok | malformed | unsafeByte | tooLong | badArg
  | ackMatchedOk | ackMatchedErr | ackUnmatched | notAnAck | isSentinel | notSentinel
  deriving DecidableEq, Repr

/-- `CFG.CODING` (R23): how a frame's data field is carried (spec/30_encoding.md R88). -/
inductive Coding where
  /-- 0. -/
  | text
  /-- 1. -/
  | hex
  deriving DecidableEq, Repr

/-- The status a transport event reports (spec/00_scope.md R9). -/
inductive Status where
  | ok | fail
  deriving DecidableEq, Repr

/-- The atomic events of R9: "the engine changes state only by one of these". -/
inductive Event where
  /-- `Reset`, from the platform. -/
  | reset
  /-- `HostWrite(off, v)`, from the host. -/
  | hostWrite (off : BitVec 8) (v : Word)
  /-- `HostRead(off)`, from the host. -/
  | hostRead (off : BitVec 8)
  /-- `Tick`, from the timebase. -/
  | tick
  /-- `RxDeliver(st, m)`, from the transport's receive side. -/
  | rxDeliver (st : Status) (m : List Byte)
  /-- `TxDone(st)`, from the transport's transmit side. -/
  | txDone (st : Status)
  deriving DecidableEq, Repr

/-- The configuration registers (R23 to R27). -/
structure ConfigRegs where
  /-- `CFG` bit 0, CODING. -/
  coding : Coding
  /-- `CFG` bit 1, STRAY_POLICY. -/
  strayPolicy : Bool
  /-- `CFG` bit 2, IRQ_EN. -/
  irqEn : Bool
  /-- `CHUNK_SIZE` bits 7:0. -/
  chunkSize : BitVec 8
  /-- `MAX_RETRIES` bits 7:0. -/
  maxRetries : BitVec 8
  /-- `ACK_TIMEOUT` bits 15:0. -/
  ackTimeout : BitVec 16
  /-- `PAYLOAD_LEN` bits 23:0. -/
  payloadLen : BitVec 24
  deriving DecidableEq, Repr

/-- `RESULT` (R30). -/
structure Result where
  /-- bits 7:0. -/
  code : ResultCode
  /-- bits 15:8. -/
  detail : BitVec 8
  deriving DecidableEq, Repr

/-- The sender unit's registers (R32 to R34). -/
structure SenderRegs where
  /-- `TX_POS` bits 15:0, TX_CHUNK. -/
  chunk : BitVec 16
  /-- `TX_POS` bits 31:16, TX_TOTAL. -/
  total : BitVec 16
  /-- `TX_RETRY` bits 7:0, TX_ATTEMPT: 0 after `Reset`, then written by the sender's rules alone. The end of a session keeps
  it (R241, R263), as `START_RECV` (R202) and `CLEAR` (R242) do (log 12). -/
  attempt : BitVec 8
  /-- `TX_RETRY` bits 15:8, TX_LAST. -/
  last : TxLast
  /-- `TX_RETRY` bits 31:16, TX_TIMER. -/
  timer : BitVec 16
  /-- `TX_FAIL_ID` bits 15:0. -/
  failId : BitVec 16
  deriving DecidableEq, Repr

/-- `RX_LAST` (R39). -/
structure RxLast where
  /-- bits 7:0, EVENT. -/
  event : RxEvent
  /-- bits 15:8, DETAIL. -/
  detail : BitVec 8
  /-- bits 31:16, ID. -/
  id : BitVec 16
  deriving DecidableEq, Repr

/-- The receiver unit's registers (R35 to R39). -/
structure ReceiverRegs where
  /-- `RX_TOTAL` bits 15:0. -/
  total : BitVec 16
  /-- `RX_TOTAL` bit 16, RX_KNOWN. -/
  known : Bool
  /-- `RX_COUNT` bits 15:0. -/
  count : BitVec 16
  /-- `RX_COUNT` bits 31:16, RX_EXPECT. -/
  expect : BitVec 16
  /-- `RX_MISSING` bits 15:0, RX_FIRST_MISSING. -/
  firstMissing : BitVec 16
  /-- `RX_MISSING` bits 31:16, RX_MISSING_COUNT. -/
  missingCount : BitVec 16
  /-- `OUT_LEN` bits 23:0. -/
  outLen : BitVec 24
  /-- `RX_LAST`. -/
  last : RxLast
  deriving DecidableEq, Repr

/-- `OP_STATUS` (R40). -/
structure OpStatus where
  /-- bits 7:0. -/
  code : OpCode
  /-- bits 15:8. -/
  detail : BitVec 8
  deriving DecidableEq, Repr

/-- The scratch (component) registers (R40 to R44). -/
structure ScratchRegs where
  opStatus : OpStatus
  /-- `CSUM_OUT` bits 7:0. -/
  csumOut : BitVec 8
  /-- `F_CHUNK_ID` bits 15:0. -/
  fChunkId : BitVec 16
  /-- `F_TOTAL` bits 15:0. -/
  fTotal : BitVec 16
  /-- `F_CHECKSUM` bits 7:0. -/
  fChecksum : BitVec 8
  /-- `F_LEN` bits 15:0. -/
  fLen : BitVec 16
  /-- `MSG_LEN` bits 15:0. -/
  msgLen : BitVec 16
  /-- `ACK_CTRL` bits 15:0, ACK_ID. -/
  ackId : BitVec 16
  /-- `ACK_CTRL` bit 16, ACK_OK. -/
  ackOk : Bool
  /-- `ACK_EXPECT` bits 15:0. -/
  ackExpect : BitVec 16
  deriving DecidableEq, Repr

/-- The host's buffer port (R45); `BUF_DATA` "holds no state of its own". -/
structure PortRegs where
  /-- `BUF_SEL` bits 2:0. -/
  sel : BitVec 3
  /-- `BUF_ADDR` bits 23:0. -/
  addr : BitVec 24
  deriving DecidableEq, Repr

/-- The twelve event counters (R46). -/
structure Counters where
  txmsg : BitVec 16
  txerr : BitVec 16
  retry : BitVec 16
  timeout : BitVec 16
  nak : BitVec 16
  stray : BitVec 16
  rxok : BitVec 16
  malformed : BitVec 16
  csum : BitVec 16
  reject : BitVec 16
  dup : BitVec 16
  ooo : BitVec 16
  deriving DecidableEq, Repr

/-- The bytes of one buffer that something has written since `Reset`: (address, byte) pairs, addresses strictly rising
(`Memory.wf`). An address that is not listed has not been written: it reads as the draw of R301 (`State.byteAt`,
log 5 and log 6). -/
abbrev Memory := List Host.Cell

/-- The buffers with storage (spec/20_memory.md R61). -/
structure Buffers where
  payload : Memory
  msg : Memory
  data : Memory
  out : Memory
  txmsg : Memory
  deriving DecidableEq, Repr

/-- The reassembly buffer (R51): "mapping from chunk_id to validated data". Entry (i, d), ids strictly rising, stands
for `VALID[i] = 1`, `SLOT_LEN[i] = len(d)` and `SLOT[i][0..len(d)) = d`. A slot whose valid bit is 0 is not listed: its
contents are unspecified and "no rule reads" them (log 7). -/
abbrev Slots := List (Nat × List Byte)

/-- The state of the block (R20), and four fields of the model's own at the end. -/
structure State where
  /-- The parameters of spec/00_scope.md R12. The model's own field: no step changes it (log 4). -/
  params : Params
  /-- `CFG`, `CHUNK_SIZE`, `MAX_RETRIES`, `ACK_TIMEOUT`, `PAYLOAD_LEN`. -/
  cfg : ConfigRegs
  /-- `STATUS.STATE`. -/
  engine : EngineState
  /-- `RESULT`. -/
  result : Result
  /-- `FLAGS` bits 9:0 (R31); the bits are named by `Flag` (Machine/Flags.lean). -/
  flags : BitVec 10
  /-- `TX_POS`, `TX_RETRY`, `TX_FAIL_ID`. -/
  tx : SenderRegs
  /-- `RX_TOTAL`, `RX_COUNT`, `RX_MISSING`, `OUT_LEN`, `RX_LAST`. -/
  rx : ReceiverRegs
  /-- `OP_STATUS`, `CSUM_OUT`, the scratch frame, `MSG_LEN`, `ACK_CTRL`, `ACK_EXPECT`. -/
  scratch : ScratchRegs
  /-- `BUF_SEL`, `BUF_ADDR`. -/
  port : PortRegs
  /-- `TX_LEN` bits 15:0 (R45). -/
  txLen : BitVec 16
  /-- `CNT0` to `CNT5`. -/
  cnt : Counters
  /-- `PAYLOAD`, `MSG`, `DATA`, `OUT`, `TXMSG`. -/
  bufs : Buffers
  /-- `SLOT`, `SLOT_LEN`, `VALID`. -/
  slots : Slots
  /-- The events the environment has chosen and not yet delivered, oldest first. The model's own field (log 1). -/
  inputs : List Event
  /-- What the last event returned to the host: the 32 bits of a `HostRead`, nothing for any other event. The model's
  own field (log 9). -/
  reply : Option Word
  /-- How many `Reset` events have happened: the index of the free draw of R301. The model's own field (log 5). -/
  resets : Nat
  deriving DecidableEq, Repr

/-- Why a step stops. No command and no host access ever stops: errors are values (spec/60_exceptions.md R260). Both
constructors are the `stuck` of spec/93_implementation_defined.md section 3 (log 3). -/
inductive Fault where
  /-- Raised by `perform` for a `TxDone` while `STATE ∉ {S_SEND, S_END, R_ACK}`: "a model must not give them a step
  there" (spec/42_sender.md R180). Safe: the model stops where no such event exists. -/
  | txDoneNotEnabled
  /-- Raised by `perform` for an `RxDeliver` while `STATE ∉ {S_WAIT, R_LISTEN}` (R180, spec/00_scope.md R10). Safe: the
  model stops where no such event exists. -/
  | rxDeliverNotEnabled
  deriving DecidableEq, Repr

/-- Why a step has no meaning. -/
inductive Refusal where
  /-- Raised by `exec`'s arm of a command that has no meaning yet; no arm does. Safe. -/
  | notModelled (mnemonic : String)
  deriving DecidableEq, Repr

/-- Every counter at 0 (R46, R300). -/
def Counters.zero : Counters :=
  { txmsg := 0, txerr := 0, retry := 0, timeout := 0, nak := 0, stray := 0,
    rxok := 0, malformed := 0, csum := 0, reject := 0, dup := 0, ooo := 0 }

/-- Every buffer with nothing written (R301). -/
def Buffers.unwritten : Buffers := { payload := [], msg := [], data := [], out := [], txmsg := [] }

/-- The block with parameters `p` right after `Reset`: the table of R300, with no event waiting, nothing returned and
the first draw (log 1, 5, 9). -/
def State.resetWith (p : Params) : State where
  params := p
  cfg :=
    { coding := .text, strayPolicy := false, irqEn := false, chunkSize := 0, maxRetries := 0,
      ackTimeout := 0, payloadLen := 0 }
  engine := .idle
  result := { code := .none, detail := 0 }
  flags := 0
  tx := { chunk := 0, total := 0, attempt := 0, last := .none, timer := 0, failId := 0xFFFF }
  rx :=
    { total := 0, known := false, count := 0, expect := 0, firstMissing := 0xFFFF, missingCount := 0,
      outLen := 0, last := { event := .none, detail := 0, id := 0 } }
  scratch :=
    { opStatus := { code := .none, detail := 0 }, csumOut := 0, fChunkId := 0, fTotal := 0,
      fChecksum := 0, fLen := 0, msgLen := 0, ackId := 0, ackOk := false, ackExpect := 0 }
  port := { sel := 0, addr := 0 }
  txLen := 0
  cnt := Counters.zero
  bufs := Buffers.unwritten
  slots := []
  inputs := []
  reply := none
  resets := 0

/-- The machine right after `Reset` (R300), with the parameters of the spec's vectors (log 4). -/
def State.reset : State := State.resetWith Config.params

end Sys2Proof.Machine
end

