-- ==== Sys2Proof/Machine/Flags.lean ====
section
/-! DEFINITION. The sticky `FLAGS` (spec/10_state.md R31), the interrupt line (spec/60_exceptions.md R268) and the
saturating event counters (R46, spec/00_scope.md R16). -/

namespace Sys2Proof.Machine

/-- The flags of `FLAGS`, from bit 0 to bit 9 (R31). -/
inductive Flag where
  | done | cmdErr | hostErr | ooo | dup | malformed | csumErr | reject | txErr | retry
  deriving DecidableEq, Repr

/-- The bit of a flag (R31). -/
def Flag.bit : Flag → Nat
  | .done => 0
  | .cmdErr => 1
  | .hostErr => 2
  | .ooo => 3
  | .dup => 4
  | .malformed => 5
  | .csumErr => 6
  | .reject => 7
  | .txErr => 8
  | .retry => 9

/-- The word of `FLAGS` in which only this flag is 1. -/
def Flag.mask (f : Flag) : BitVec 10 := 1#10 <<< f.bit

/-- Whether a flag is 1. -/
def State.hasFlag (f : Flag) (s : State) : Bool := s.flags.getLsbD f.bit

/-- `FLAGS.X <- 1`: the flags are sticky, so no other bit changes (R31). -/
def State.setFlag (f : Flag) (s : State) : State := { s with flags := s.flags ||| f.mask }

/-- `FLAGS[0] <- 0; FLAGS[9:3] <- 0`: the session flags. Bits 1 and 2 stay (R31). -/
def State.clearSessionFlags (s : State) : State := { s with flags := s.flags &&& 0b0000000110#10 }

/-- `FLAGS <- FLAGS AND NOT v[9:0]`: a host write of 1 to a bit clears it (spec/20_memory.md R62). -/
def State.clearFlagsWritten (v : Word) (s : State) : State :=
  { s with flags := s.flags &&& ~~~(v.extractLsb' 0 10) }

/-- The level of the interrupt line: `irq = FLAGS.DONE ∧ CFG.IRQ_EN` (R268). -/
def State.irq (s : State) : Bool := s.hasFlag .done && s.cfg.irqEn

/-- The twelve event counters (R46). -/
inductive Counter where
  | txmsg | txerr | retry | timeout | nak | stray | rxok | malformed | csum | reject | dup | ooo
  deriving DecidableEq, Repr

/-- `sat16(x + 1)` of a 16-bit counter (spec/00_scope.md R14, R16). -/
def sat16Succ (c : BitVec 16) : BitVec 16 := BitVec.ofNat 16 (min (c.toNat + 1) 0xFFFF)

/-- The value of a counter. -/
def Counters.get (c : Counter) (k : Counters) : BitVec 16 :=
  match c with
  | .txmsg => k.txmsg
  | .txerr => k.txerr
  | .retry => k.retry
  | .timeout => k.timeout
  | .nak => k.nak
  | .stray => k.stray
  | .rxok => k.rxok
  | .malformed => k.malformed
  | .csum => k.csum
  | .reject => k.reject
  | .dup => k.dup
  | .ooo => k.ooo

/-- One counter one up, saturating; the others as they are. -/
def Counters.inc (c : Counter) (k : Counters) : Counters :=
  match c with
  | .txmsg => { k with txmsg := sat16Succ k.txmsg }
  | .txerr => { k with txerr := sat16Succ k.txerr }
  | .retry => { k with retry := sat16Succ k.retry }
  | .timeout => { k with timeout := sat16Succ k.timeout }
  | .nak => { k with nak := sat16Succ k.nak }
  | .stray => { k with stray := sat16Succ k.stray }
  | .rxok => { k with rxok := sat16Succ k.rxok }
  | .malformed => { k with malformed := sat16Succ k.malformed }
  | .csum => { k with csum := sat16Succ k.csum }
  | .reject => { k with reject := sat16Succ k.reject }
  | .dup => { k with dup := sat16Succ k.dup }
  | .ooo => { k with ooo := sat16Succ k.ooo }

/-- `cnt(X)`: `CNT_X <- sat16(CNT_X + 1)` (R16). -/
def State.cntInc (c : Counter) (s : State) : State := { s with cnt := s.cnt.inc c }

end Sys2Proof.Machine
end

