-- ==== Sys2Proof/Machine/Operands.lean ====
section
/-! DEFINITION. The numbers of the enumerated fields (spec/10_state.md) and the byte strings that messages are made of
(spec/30_encoding.md R84 to R90): canonical decimal, the two codings of data, the frame, the acknowledgement and the
sentinel. -/

namespace Sys2Proof.Machine

/-! ## Numbers of the enumerated fields -/

/-- The STATE field (R28). -/
def EngineState.code : EngineState → BitVec 4
  | .idle => 0
  | .sSend => 1
  | .sWait => 2
  | .sEnd => 3
  | .rListen => 4
  | .rAck => 5

/-- The CODE field of `RESULT` (R30). -/
def ResultCode.code : ResultCode → BitVec 8
  | .none => 0
  | .sendSuccess => 1
  | .sendRetryExhausted => 2
  | .sendSentinelTxFail => 3
  | .recvAssembled => 4
  | .recvIncomplete => 5
  | .cancelled => 6
  | .cfgError => 7

/-- The TX_LAST field (R33). -/
def TxLast.code : TxLast → BitVec 8
  | .none => 0
  | .acked => 1
  | .timeout => 2
  | .nak => 3
  | .unmatched => 4
  | .notAnAck => 5
  | .txFail => 6

/-- The EVENT field of `RX_LAST` (R39). -/
def RxEvent.code : RxEvent → BitVec 8
  | .none => 0
  | .stored => 1
  | .malformed => 2
  | .csumMismatch => 3
  | .rejected => 4
  | .sentinel => 5

/-- The CODE field of `OP_STATUS` (R40). -/
def OpCode.code : OpCode → BitVec 8
  | .none => 0
  | .ok => 1
  | .malformed => 2
  | .unsafeByte => 3
  | .tooLong => 4
  | .badArg => 5
  | .ackMatchedOk => 6
  | .ackMatchedErr => 7
  | .ackUnmatched => 8
  | .notAnAck => 9
  | .isSentinel => 10
  | .notSentinel => 11

/-- The CODING bit of `CFG` (R23). -/
def Coding.bit : Coding → BitVec 1
  | .text => 0
  | .hex => 1

/-- The coding a CODING bit selects (R23). -/
def Coding.ofBit (b : Bool) : Coding := if b then .hex else .text

/-! ## Byte strings (spec/00_scope.md R15) -/

/-- The delimiter `'|'` (R84). -/
def bar : Byte := 0x7C

/-- `split(s, c)`: `s` cut at every byte equal to `c`, `count(s, c) + 1` pieces (R15). -/
def split (c : Byte) : List Byte → List (List Byte)
  | [] => [[]]
  | b :: t =>
    if b = c then [] :: split c t
    else
      match split c t with
      | [] => [[b]]
      | p :: ps => (b :: p) :: ps

/-! ## Canonical decimal (R86, R87) -/

/-- The ASCII digit of a number below 10. -/
def digitByte (d : Nat) : Byte := BitVec.ofNat 8 (0x30 + d)

/-- The decimal digits of `n` in front of `acc`; `fuel > n` is enough. -/
def decAux : Nat → Nat → List Byte → List Byte
  | 0, _, acc => acc
  | fuel + 1, n, acc =>
    if n < 10 then digitByte n :: acc
    else decAux fuel (n / 10) (digitByte (n % 10) :: acc)

/-- `dec(n)`: the shortest decimal spelling of `n`, most significant digit first (R86). -/
def dec (n : Nat) : List Byte := decAux (n + 1) n []

/-- Whether a byte is an ASCII digit. -/
def isDigit (b : Byte) : Bool := decide (0x30 ≤ b.toNat) && decide (b.toNat ≤ 0x39)

/-- The number a string of digits spells in base 10 (R86). -/
def digitsValue (s : List Byte) : Nat := s.foldl (fun n b => 10 * n + (b.toNat - 0x30)) 0

/-- `parse_dec(s, maxv)`: strict canonical decimal (R86). The four checks are in the rule's order. -/
def parseDec (s : List Byte) (maxv : Nat) : Option Nat :=
  if s.length = 0 then none
  else if !s.all isDigit then none
  else if 1 < s.length ∧ s.head? = some 0x30 then none
  else if digitsValue s > maxv then none
  else some (digitsValue s)

/-! ## Data coding (R88) -/

/-- A byte TEXT coding can carry: `0x20 ≤ b ≤ 0x7E` and `b ≠ 0x7C` (R88). -/
def isSafe (b : Byte) : Bool := decide (0x20 ≤ b.toNat) && decide (b.toNat ≤ 0x7E) && decide (b ≠ bar)

/-- The upper-case hexadecimal digit of a nibble (R88). -/
def hexByte (n : BitVec 4) : Byte :=
  if n.toNat < 10 then BitVec.ofNat 8 (0x30 + n.toNat) else BitVec.ofNat 8 (0x41 + (n.toNat - 10))

/-- `hv(c)`: the value of a hexadecimal digit of either case, or nothing (R88). -/
def hexValue (b : Byte) : Option (BitVec 4) :=
  let c := b.toNat
  if 0x30 ≤ c ∧ c ≤ 0x39 then some (BitVec.ofNat 4 (c - 0x30))
  else if 0x41 ≤ c ∧ c ≤ 0x46 then some (BitVec.ofNat 4 (c - 0x41 + 10))
  else if 0x61 ≤ c ∧ c ≤ 0x66 then some (BitVec.ofNat 4 (c - 0x61 + 10))
  else none

/-- `coded(d)` under HEX: two characters a byte, the high nibble first (R88). -/
def codedHex : List Byte → List Byte
  | [] => []
  | b :: t => hexByte (b.extractLsb' 4 4) :: hexByte (b.extractLsb' 0 4) :: codedHex t

/-- `uncoded(s)` under HEX: fails on an odd length or a byte that is no hexadecimal digit (R88). -/
def uncodedHex : List Byte → Option (List Byte)
  | [] => some []
  | [_] => none
  | h :: l :: t =>
    match hexValue h, hexValue l, uncodedHex t with
    | some a, some b, some d => some ((a ++ b) :: d)
    | _, _, _ => none

/-- `coded(d)` (R88). Under TEXT it is `d`; the rule defines it only when every byte of `d` is safe, which `encodeFrame`
checks first (spec/40_codec.md R113). -/
def coded (c : Coding) (d : List Byte) : List Byte :=
  match c with
  | .text => d
  | .hex => codedHex d

/-- `uncoded_c(s)`: the data a field carries, or failure (R88). -/
def uncoded (c : Coding) (s : List Byte) : Option (List Byte) :=
  match c with
  | .text => if s.all isSafe then some s else none
  | .hex => uncodedHex s

/-! ## Messages (R85, R89, R90) -/

/-- A frame: the source's `{chunk_id, total_chunks, checksum, data}`, with the widths of spec/00_scope.md R13. -/
structure Frame where
  chunkId : BitVec 16
  totalChunks : BitVec 16
  checksum : BitVec 8
  data : List Byte
  deriving DecidableEq, Repr

/-- `frame_msg(F)` under a coding (R85). -/
def frameMsg (F : Frame) (c : Coding) : List Byte :=
  dec F.chunkId.toNat ++ [bar] ++ dec F.totalChunks.toNat ++ [bar] ++ dec F.checksum.toNat ++ [bar] ++ coded c F.data

/-- The kind tokens `"ACK"` and `"ERR"` (R89). -/
def ackToken (ok : Bool) : List Byte := if ok then [0x41, 0x43, 0x4B] else [0x45, 0x52, 0x52]

/-- `ack_msg(n, ok)` (R89). -/
def ackMsg (n : BitVec 16) (ok : Bool) : List Byte := ackToken ok ++ [bar] ++ dec n.toNat

/-- `SENTINEL = "END"` (R90). -/
def sentinel : List Byte := [0x45, 0x4E, 0x44]

end Sys2Proof.Machine
end

