-- ==== Sys2Proof/Machine/Ops.lean ====
section
/-! DEFINITION. The named operations the rules share: a sparse table in canonical form, `MemRead` and `MemWrite`
(spec/00_scope.md R16), the reassembly slots (spec/10_state.md R51), `offer` (R17), the register writes several rules
make, and `finish` (spec/60_exceptions.md R263), which ends every session. The block has no trap (R260): there is no
exception to take and none to return from; `finish` is where every terminal outcome goes. -/

namespace Sys2Proof.Machine

/-! ## Tables by number, in canonical form -/

/-- The canonical form: keys strictly rising, so no key twice. Equal tables are equal data. -/
abbrev Sparse.wf {α : Type} (l : List (Nat × α)) : Prop := (l.map Prod.fst).Pairwise (· < ·)

/-- The entry of a key, if it has one. -/
def Sparse.get? {α : Type} (k : Nat) : List (Nat × α) → Option α
  | [] => none
  | (j, x) :: t => if j = k then some x else Sparse.get? k t

/-- The table with the entry of one key replaced or added. -/
def Sparse.set {α : Type} (k : Nat) (x : α) : List (Nat × α) → List (Nat × α)
  | [] => [(k, x)]
  | (j, y) :: t =>
    if k < j then (k, x) :: (j, y) :: t
    else if k = j then (k, x) :: t
    else (j, y) :: Sparse.set k x t

/-! ## Buffers -/

/-- The canonical form of a buffer's memory. No entry can equal what an unlisted address holds, which is "nothing
written" (log 6). -/
abbrev Memory.wf (m : Memory) : Prop := Sparse.wf m

/-- The memory with a string of bytes written from address `a` on. -/
def Memory.writeAll (a : Nat) : List Byte → Memory → Memory
  | [], m => m
  | x :: xs, m => Memory.writeAll (a + 1) xs (Sparse.set a x m)

/-- The memory of one buffer. -/
def Buffers.get (b : Buffer) (m : Buffers) : Memory :=
  match b with
  | .payload => m.payload
  | .msg => m.msg
  | .data => m.data
  | .out => m.out
  | .txmsg => m.txmsg

/-- The buffers with the memory of one replaced. -/
def Buffers.put (b : Buffer) (x : Memory) (m : Buffers) : Buffers :=
  match b with
  | .payload => { m with payload := x }
  | .msg => { m with msg := x }
  | .data => { m with data := x }
  | .out => { m with out := x }
  | .txmsg => { m with txmsg := x }

/-- `BUF[a]`: the byte written last, or the draw of `Reset` where nothing was written since
(spec/70_reset_and_hazards.md R301, log 5). -/
def State.byteAt (s : State) (b : Buffer) (a : Nat) : Byte :=
  (Sparse.get? a (s.bufs.get b)).getD (Config.resetDraw s.resets b a)

/-- `MemRead(BUF, a, n)`: the byte string `BUF[a..a+n)` (R16). -/
def State.memRead (s : State) (b : Buffer) (a n : Nat) : List Byte :=
  (List.range n).map fun i => s.byteAt b (a + i)

/-- `MemWrite(BUF, a, n, x)` with `n = len(x)` (R16). -/
def State.memWrite (s : State) (b : Buffer) (a : Nat) (x : List Byte) : State :=
  { s with bufs := s.bufs.put b (Memory.writeAll a x (s.bufs.get b)) }

/-- `cap(sel)` of the buffers with storage (spec/20_memory.md R61). -/
def State.capacity (s : State) (b : Buffer) : Nat :=
  match b with
  | .payload => s.params.payloadBytes
  | .msg => s.params.maxMsg
  | .data => s.params.maxMsg
  | .out => s.params.maxChunks * Config.slotBytes
  | .txmsg => s.params.maxMsg

/-! ## The reassembly slots (R51, R52) -/

/-- `VALID[i]`. -/
def State.valid (s : State) (i : Nat) : Bool := (Sparse.get? i s.slots).isSome

/-- `SLOT[i][0..SLOT_LEN[i])`. No rule reads it where `VALID[i] = 0`; there it is given as empty (log 8). -/
def State.slotData (s : State) (i : Nat) : List Byte := (Sparse.get? i s.slots).getD []

/-- Byte `j` of `BITMAP`: `Σ VALID[8j+k] << k` over the `k ≤ 7` with `8j+k < P_MAX_CHUNKS` (R52). -/
def State.bitmapByte (s : State) (j : Nat) : Byte :=
  (List.range 8).foldl
    (fun acc k =>
      if 8 * j + k < s.params.maxChunks && s.valid (8 * j + k) then acc ||| (1#8 <<< k) else acc) 0

/-- `ceil(P_MAX_CHUNKS / 8)`, the bytes of `BITMAP` (R52). -/
def State.bitmapCapacity (s : State) : Nat := (s.params.maxChunks + 7) / 8

/-! ## Register writes several rules make -/

/-- `RESULT <- {code, detail}`. -/
def State.setResult (code : ResultCode) (detail : BitVec 8) (s : State) : State :=
  { s with result := { code := code, detail := detail } }

/-- `OP_STATUS <- {code, detail}` (R40). -/
def State.setOpStatus (code : OpCode) (detail : BitVec 8) (s : State) : State :=
  { s with scratch := { s.scratch with opStatus := { code := code, detail := detail } } }

/-- `RX_LAST <- {event, detail, id}` (R39). -/
def State.setRxLast (event : RxEvent) (detail : BitVec 8) (id : BitVec 16) (s : State) : State :=
  { s with rx := { s.rx with last := { event := event, detail := detail, id := id } } }

/-- `TX_LAST <- r` (R33). -/
def State.setTxLast (r : TxLast) (s : State) : State := { s with tx := { s.tx with last := r } }

/-- `TX_TIMER <- v` (R33). -/
def State.setTxTimer (v : BitVec 16) (s : State) : State := { s with tx := { s.tx with timer := v } }

/-- `STATE <- e` (R16). -/
def State.goto (e : EngineState) (s : State) : State := { s with engine := e }

/-- `every CNT_* <- 0`. -/
def State.clearCounters (s : State) : State := { s with cnt := Counters.zero }

/-! ## The transmit primitive and the end of a session -/

/-- `offer(m)`: `m` to `TXMSG[0..len(m))` and `TX_LEN <- len(m)` (spec/00_scope.md R17, spec/10_state.md R49). -/
def State.offer (m : List Byte) (s : State) : State :=
  { s.memWrite .txmsg 0 m with txLen := BitVec.ofNat 16 m.length }

/-- STATE ∈ {S_SEND, S_END, R_ACK}: the engine offers a message, and `TxDone` is enabled (R10). -/
def EngineState.offering : EngineState → Bool
  | .sSend | .sEnd | .rAck => true
  | .idle | .sWait | .rListen => false

/-- STATE ∈ {S_WAIT, R_LISTEN}: the engine is receive-ready, and `RxDeliver` is enabled (R10). -/
def EngineState.receiveReady : EngineState → Bool
  | .sWait | .rListen => true
  | .idle | .sSend | .sEnd | .rAck => false

/-- The transmit port: it presents `TXMSG[0..TX_LEN)` while the engine offers (R49). -/
def State.txPort (s : State) : Option (List Byte) :=
  if s.engine.offering then some (s.memRead .txmsg 0 s.txLen.toNat) else none

/-- `finish(code, detail)`: the end of every session (R263). The interrupt line follows `FLAGS.DONE` (`State.irq`). -/
def State.finish (code : ResultCode) (detail : BitVec 8) (s : State) : State :=
  (((s.setResult code detail).setTxTimer 0).goto .idle).setFlag .done

/-! ## Accepting a command (spec/30_encoding.md R81, R82) -/

/-- A refused command "has exactly one effect: `FLAGS.CMD_ERR <- 1`" (R82). -/
def State.refuseCommand (s : State) : State := s.setFlag .cmdErr

/-- A command accepted only in STATE = IDLE: refused in every other state, before any check of its own rule (R82,
R265). -/
def State.whenIdle (s : State) (run : State → State) : Host.Outcome State Fault Refusal :=
  if s.engine = .idle then .next (run s) else .next s.refuseCommand

end Sys2Proof.Machine
end

