-- ==== Sys2Proof/Machine/Codec.lean ====
section
/-! DEFINITION. The frame codec, the checksum and fragmentation as pure functions (spec/40_codec.md R110 to R117), and
the four commands that run them on the scratch registers (R120 to R123). -/

namespace Sys2Proof.Machine

/-! ## Pure functions -/

/-- `checksum(d)`: the sum of the bytes modulo 256 (R110). -/
def checksum (d : List Byte) : BitVec 8 := BitVec.ofNat 8 ((d.map BitVec.toNat).sum % 256)

/-- Why `encode` fails (R113). -/
inductive EncodeError where
  | unsafeByte | tooLong
  deriving DecidableEq, Repr

/-- `encode(F, c)` of a block whose messages hold `maxMsg` bytes (R113). -/
def encodeFrame (maxMsg : Nat) (F : Frame) (c : Coding) : Except EncodeError (List Byte) :=
  if c = .text ∧ !F.data.all isSafe then .error .unsafeByte
  else if (frameMsg F c).length > maxMsg then .error .tooLong
  else .ok (frameMsg F c)

/-- The detail of `MalformedFrame` (R114, spec/10_state.md R40). -/
inductive Malformed where
  | parts | badChunkId | badTotal | badChecksum | badData | tooLong
  deriving DecidableEq, Repr

/-- The number of a detail (R40). -/
def Malformed.code : Malformed → BitVec 8
  | .parts => 1
  | .badChunkId => 2
  | .badTotal => 3
  | .badChecksum => 4
  | .badData => 5
  | .tooLong => 6

/-- The four fields of a frame, checked in the order of R114. -/
def decodeFields (f1 f2 f3 f4 : List Byte) (c : Coding) : Except Malformed Frame :=
  match parseDec f1 65535 with
  | none => .error .badChunkId
  | some id =>
    match parseDec f2 65535 with
    | none => .error .badTotal
    | some total =>
      match parseDec f3 255 with
      | none => .error .badChecksum
      | some cs =>
        match uncoded c f4 with
        | none => .error .badData
        | some d =>
          .ok { chunkId := BitVec.ofNat 16 id, totalChunks := BitVec.ofNat 16 total,
                checksum := BitVec.ofNat 8 cs, data := d }

/-- `decode(m, c)`: "the first check that fails gives the detail" (R114). -/
def decodeFrame (maxMsg : Nat) (m : List Byte) (c : Coding) : Except Malformed Frame :=
  if m.length > maxMsg then .error .tooLong
  else if m.count bar ≠ 3 then .error .parts
  else
    match split bar m with
    | [f1, f2, f3, f4] => decodeFields f1 f2 f3 f4 c
    | _ => .error .parts

/-- `ceil(len / S)`, the number of chunks, for `S > 0` (spec/00_scope.md R14). -/
def chunkCount (len S : Nat) : Nat := (len + S - 1) / S

/-- Frame `k` of `n` with data `d` and its right checksum (R116). -/
def makeFrame (k n : Nat) (d : List Byte) : Frame :=
  { chunkId := BitVec.ofNat 16 k, totalChunks := BitVec.ofNat 16 n, checksum := checksum d, data := d }

/-- `d_k = P[k·S .. min((k+1)·S, len(P)))` (R116). -/
def chunkOf (P : List Byte) (S k : Nat) : List Byte := (P.drop (k * S)).take S

/-- `fragment(P, S)` (R116). -/
def fragment (P : List Byte) (S : Nat) : List Frame :=
  (List.range (chunkCount P.length S)).map fun k => makeFrame k (chunkCount P.length S) (chunkOf P S k)

/-! ## Operands of the scratch commands -/

/-- The bytes of chunk `k` of `PAYLOAD[0..L)`: `MemRead(PAYLOAD, k·S, min((k+1)·S, L) - k·S)` (R123,
spec/42_sender.md R163). -/
def State.payloadChunk (s : State) (k : Nat) : List Byte :=
  let S := s.cfg.chunkSize.toNat
  let L := s.cfg.payloadLen.toNat
  s.memRead .payload (k * S) (min ((k + 1) * S) L - k * S)

/-- The scratch frame `{F_CHUNK_ID, F_TOTAL, F_CHECKSUM, DATA[0..F_LEN)}` (spec/10_state.md R42). -/
def State.scratchFrame (s : State) : Frame :=
  { chunkId := s.scratch.fChunkId, totalChunks := s.scratch.fTotal, checksum := s.scratch.fChecksum,
    data := s.memRead .data 0 s.scratch.fLen.toNat }

/-- The scratch message `MSG[0..MSG_LEN)` (R43). -/
def State.scratchMsg (s : State) : List Byte := s.memRead .msg 0 s.scratch.msgLen.toNat

/-- `MemWrite(MSG, 0, len(m), m); MSG_LEN <- len(m); OP_STATUS <- {OK, 0}` (R121, spec/41_ack.md R146, R148). -/
def State.writeMsg (m : List Byte) (s : State) : State :=
  let s := s.memWrite .msg 0 m
  ({ s with scratch := { s.scratch with msgLen := BitVec.ofNat 16 m.length } }).setOpStatus .ok 0

/-! ## Commands -/

/-- The effect of `OP_CHECKSUM` in IDLE (R120). -/
def runChecksum (s : State) : State :=
  if s.scratch.fLen.toNat > s.params.maxMsg then s.setOpStatus .badArg 1
  else
    ({ s with scratch := { s.scratch with csumOut := checksum (s.memRead .data 0 s.scratch.fLen.toNat) } }).setOpStatus
      .ok 0

/-- `OP_CHECKSUM` (R120). -/
def execOpChecksum (s : State) : Host.Outcome State Fault Refusal := s.whenIdle runChecksum

/-- The effect of `OP_ENCODE` in IDLE (R121). -/
def runEncode (s : State) : State :=
  if s.scratch.fLen.toNat > s.params.maxMsg then s.setOpStatus .badArg 1
  else
    match encodeFrame s.params.maxMsg s.scratchFrame s.cfg.coding with
    | .error .unsafeByte => s.setOpStatus .unsafeByte 0
    | .error .tooLong => s.setOpStatus .tooLong 0
    | .ok m => s.writeMsg m

/-- `OP_ENCODE` (R121). -/
def execOpEncode (s : State) : Host.Outcome State Fault Refusal := s.whenIdle runEncode

/-- The registers and `DATA` after a decoded frame: "writes on success" of R122. -/
def State.writeDecoded (F : Frame) (s : State) : State :=
  let s := s.memWrite .data 0 F.data
  ({ s with scratch :=
      { s.scratch with
        fChunkId := F.chunkId, fTotal := F.totalChunks, fChecksum := F.checksum,
        fLen := BitVec.ofNat 16 F.data.length, csumOut := checksum F.data } }).setOpStatus .ok 0

/-- The effect of `OP_DECODE` in IDLE (R122). -/
def runDecode (s : State) : State :=
  if s.scratch.msgLen.toNat > s.params.maxMsg then s.setOpStatus .badArg 2
  else
    match decodeFrame s.params.maxMsg s.scratchMsg s.cfg.coding with
    | .error d => s.setOpStatus .malformed d.code
    | .ok F => s.writeDecoded F

/-- `OP_DECODE` (R122). -/
def execOpDecode (s : State) : Host.Outcome State Fault Refusal := s.whenIdle runDecode

/-- The registers and `DATA` after `OP_FRAGMENT` gave chunk `d` of `n`: "writes on success" of R123. -/
def State.writeFragment (n : Nat) (d : List Byte) (s : State) : State :=
  let s := s.memWrite .data 0 d
  ({ s with scratch :=
      { s.scratch with
        fTotal := BitVec.ofNat 16 n, fLen := BitVec.ofNat 16 d.length,
        fChecksum := checksum d, csumOut := checksum d } }).setOpStatus .ok 0

/-- The effect of `OP_FRAGMENT` in IDLE; the checks 3, 4, 6, 5, 1 in the order of R123. -/
def runFragment (s : State) : State :=
  let S := s.cfg.chunkSize.toNat
  let L := s.cfg.payloadLen.toNat
  let k := s.scratch.fChunkId.toNat
  let n := chunkCount L S
  if S = 0 then s.setOpStatus .badArg 3
  else if L = 0 ∨ L > s.params.payloadBytes then s.setOpStatus .badArg 4
  else if n > 65535 then s.setOpStatus .badArg 6
  else if k ≥ n then s.setOpStatus .badArg 5
  else if (s.payloadChunk k).length > s.params.maxMsg then s.setOpStatus .badArg 1
  else s.writeFragment n (s.payloadChunk k)

/-- `OP_FRAGMENT` (R123). -/
def execOpFragment (s : State) : Host.Outcome State Fault Refusal := s.whenIdle runFragment

end Sys2Proof.Machine
end

