-- ==== Sys2Proof/Machine/Ack.lean ====
section
/-! DEFINITION. Acknowledgements, the per-frame sequence-number matcher and the sentinel recognizer as pure functions
(spec/41_ack.md R140 to R144), and the four commands that run them on the scratch registers (R146 to R149). -/

namespace Sys2Proof.Machine

/-! ## Pure functions -/

/-- `parse_ack(m)`: `(ok, id)`, or nothing for NOT_ACK (R141). -/
def parseAck (maxMsg : Nat) (m : List Byte) : Option (Bool × BitVec 16) :=
  if m.length > maxMsg then none
  else if m.count bar ≠ 1 then none
  else
    match split bar m with
    | [k, f] =>
      if k = ackToken true then (parseDec f 65535).map fun id => (true, BitVec.ofNat 16 id)
      else if k = ackToken false then (parseDec f 65535).map fun id => (false, BitVec.ofNat 16 id)
      else none
    | _ => none

/-- What a message is to a sender that awaits one id (R143). -/
inductive AckClass where
  | matched (ok : Bool) | unmatched | notAnAck
  deriving DecidableEq, Repr

/-- `decode_ack(m, e)`: the sequence-number matcher (R142, R143). -/
def decodeAck (maxMsg : Nat) (m : List Byte) (e : BitVec 16) : AckClass :=
  match parseAck maxMsg m with
  | none => .notAnAck
  | some (ok, id) => if id = e then .matched ok else .unmatched

/-- `is_sentinel(m)`: byte for byte the message "END" (R144). -/
def isSentinel (m : List Byte) : Bool := decide (m = sentinel)

/-! ## Commands -/

/-- The effect of `OP_ENC_ACK` in IDLE (R146). -/
def runEncAck (s : State) : State := s.writeMsg (ackMsg s.scratch.ackId s.scratch.ackOk)

/-- `OP_ENC_ACK` (R146). -/
def execOpEncAck (s : State) : Host.Outcome State Fault Refusal := s.whenIdle runEncAck

/-- `ACK_CTRL.ACK_ID <- id; ACK_CTRL.ACK_OK <- ok` (R147). -/
def State.writeAckCtrl (ok : Bool) (id : BitVec 16) (s : State) : State :=
  { s with scratch := { s.scratch with ackId := id, ackOk := ok } }

/-- The effect of `OP_DEC_ACK` in IDLE (R147). -/
def runDecAck (s : State) : State :=
  if s.scratch.msgLen.toNat > s.params.maxMsg then s.setOpStatus .badArg 2
  else
    match parseAck s.params.maxMsg s.scratchMsg with
    | none => s.setOpStatus .notAnAck 0
    | some (ok, id) =>
      if id ≠ s.scratch.ackExpect then (s.writeAckCtrl ok id).setOpStatus .ackUnmatched 0
      else if ok then (s.writeAckCtrl ok id).setOpStatus .ackMatchedOk 0
      else (s.writeAckCtrl ok id).setOpStatus .ackMatchedErr 0

/-- `OP_DEC_ACK` (R147). -/
def execOpDecAck (s : State) : Host.Outcome State Fault Refusal := s.whenIdle runDecAck

/-- The effect of `OP_ENC_SENTINEL` in IDLE (R148). -/
def runEncSentinel (s : State) : State := s.writeMsg sentinel

/-- `OP_ENC_SENTINEL` (R148). -/
def execOpEncSentinel (s : State) : Host.Outcome State Fault Refusal := s.whenIdle runEncSentinel

/-- The effect of `OP_IS_SENTINEL` in IDLE (R149). -/
def runIsSentinel (s : State) : State :=
  if s.scratch.msgLen.toNat > s.params.maxMsg then s.setOpStatus .badArg 2
  else if isSentinel s.scratchMsg then s.setOpStatus .isSentinel 0
  else s.setOpStatus .notSentinel 0

/-- `OP_IS_SENTINEL` (R149). -/
def execOpIsSentinel (s : State) : Host.Outcome State Fault Refusal := s.whenIdle runIsSentinel

end Sys2Proof.Machine
end

