-- ==== Sys2Proof/Machine/Sender.lean ====
section
/-! DEFINITION. The sender unit (spec/42_sender.md): `START_SEND` (R160 to R163), the retry counter (R164) and the
sender's events (R170 to R178). -/

namespace Sys2Proof.Machine

/-! ## Starting a transfer -/

/-- `validate_send()`: the first failing check's detail, or 0 (R161). -/
def State.validateSend (s : State) : BitVec 8 :=
  let S := s.cfg.chunkSize.toNat
  let L := s.cfg.payloadLen.toNat
  let n := chunkCount L S
  if S = 0 then 1
  else if s.cfg.maxRetries = 0 then 2
  else if s.cfg.ackTimeout = 0 then 3
  else if L = 0 then 4
  else if L > s.params.payloadBytes then 5
  else if n > 65535 then 6
  else if s.cfg.coding = .text ∧ !(s.memRead .payload 0 L).all isSafe then 7
  else if (fragment (s.memRead .payload 0 L) S).any
      fun F => decide ((frameMsg F s.cfg.coding).length > s.params.maxMsg) then 8
  else 0

/-- The frame `offer_frame(k)` encodes: `{k, TX_TOTAL, checksum(d), d}` with `d` chunk `k` of the payload (R163). -/
def State.sendFrame (s : State) (k : BitVec 16) : Frame :=
  { chunkId := k, totalChunks := s.tx.total, checksum := checksum (s.payloadChunk k.toNat),
    data := s.payloadChunk k.toNat }

/-- `offer_frame(k)` (R163). The rule offers `encode(…)`, "never an Err, by rule R161", and where `encode` gives a
message it is `frame_msg` (R113), so the message offered is `frame_msg` (log 11). -/
def State.offerFrame (k : BitVec 16) (s : State) : State := s.offer (frameMsg (s.sendFrame k) s.cfg.coding)

/-- `begin_send()` (R162). -/
def State.beginSend (s : State) : State :=
  let s := ((s.setResult .none 0).clearSessionFlags).clearCounters
  let s := { s with tx :=
    { chunk := 0, total := BitVec.ofNat 16 (chunkCount s.cfg.payloadLen.toNat s.cfg.chunkSize.toNat),
      attempt := 1, last := .none, timer := 0, failId := 0xFFFF } }
  (s.offerFrame 0).goto .sSend

/-- A refused `START_SEND` or `START_RECV`: `RESULT <- {CFG_ERROR, d}; FLAGS.DONE <- 1`, "nothing else changes" (R160,
spec/43_receiver.md R200). -/
def State.refuseStart (d : BitVec 8) (s : State) : State := (s.setResult .cfgError d).setFlag .done

/-- The effect of `START_SEND` in IDLE (R160). -/
def runStartSend (s : State) : State :=
  if s.validateSend ≠ 0 then s.refuseStart s.validateSend else s.beginSend

/-- `START_SEND` (R160). -/
def execStartSend (s : State) : Host.Outcome State Fault Refusal := s.whenIdle runStartSend

/-! ## The retry counter -/

/-- `fail_attempt(r)` (R164). -/
def State.failAttempt (r : TxLast) (s : State) : State :=
  let s := s.setTxTimer 0
  if s.tx.attempt < s.cfg.maxRetries then
    let s := ({ s with tx := { s.tx with attempt := s.tx.attempt + 1 } }.cntInc .retry).setFlag .retry
    (s.offerFrame s.tx.chunk).goto .sSend
  else
    ({ s with tx := { s.tx with failId := s.tx.chunk } }).finish .sendRetryExhausted r.code

/-! ## Events -/

/-- `TxDone(OK)` in S_SEND (R170). -/
def senderTxDoneOk (s : State) : State :=
  ((s.cntInc .txmsg).setTxTimer s.cfg.ackTimeout).goto .sWait

/-- `TxDone(FAIL)` in S_SEND (R171). -/
def senderTxDoneFail (s : State) : State :=
  (((s.cntInc .txerr).setFlag .txErr).setTxLast .txFail).failAttempt .txFail

/-- `Tick` in S_WAIT (R172). `TX_TIMER ≥ 1` before, by R53; from 0 it would wrap (log 10). -/
def senderTick (s : State) : State :=
  let s := s.setTxTimer (s.tx.timer - 1)
  if s.tx.timer = 0 then ((s.cntInc .timeout).setTxLast .timeout).failAttempt .timeout else s

/-- `advance()` (R175). -/
def State.advance (s : State) : State :=
  let s := { s with tx := { s.tx with timer := 0, chunk := s.tx.chunk + 1 } }
  if s.tx.chunk = s.tx.total then (s.offer sentinel).goto .sEnd
  else
    let s := { s with tx := { s.tx with attempt := 1 } }
    (s.offerFrame s.tx.chunk).goto .sSend

/-- `stray(r)` (R174). -/
def State.stray (r : TxLast) (s : State) : State :=
  let s := (s.cntInc .stray).setTxLast r
  if s.cfg.strayPolicy = false then s.failAttempt r else s

/-- `RxDeliver(st, m)` in S_WAIT (R173). -/
def senderRxDeliver (st : Status) (m : List Byte) (s : State) : State :=
  match st with
  | .fail => s
  | .ok =>
    match decodeAck s.params.maxMsg m s.tx.chunk with
    | .matched true => (s.setTxLast .acked).advance
    | .matched false => ((s.cntInc .nak).setTxLast .nak).failAttempt .nak
    | .unmatched => s.stray .unmatched
    | .notAnAck => s.stray .notAnAck

/-- `TxDone(st)` in S_END: "the sentinel was offered once" (R178). -/
def sentinelTxDone (st : Status) (s : State) : State :=
  match st with
  | .ok => (s.cntInc .txmsg).finish .sendSuccess 0
  | .fail => ((s.cntInc .txerr).setFlag .txErr).finish .sendSentinelTxFail 0

end Sys2Proof.Machine
end

