-- ==== Sys2Proof/Machine/Receiver.lean ====
section
/-! DEFINITION. The receiver unit (spec/43_receiver.md): `START_RECV` (R200 to R202), VALIDATE (R204 to R212), the
out-of-order and duplicate detector (R214), completion on the sentinel (R215) and the acknowledgement's `TxDone`
(R217). -/

namespace Sys2Proof.Machine

/-! ## Starting a receive session -/

/-- `validate_recv()` (R201). -/
def State.validateRecv (s : State) : BitVec 8 := if s.cfg.chunkSize = 0 then 1 else 0

/-- `VALID[i] <- 0 for every i` and the receiver's progress registers as an empty reassembly buffer has them: the lines
that R202 and an `ABORT` of a receive session (spec/44_control.md R241) share. -/
def State.emptyReassembly (s : State) : State :=
  { s with
    slots := []
    rx := { s.rx with count := 0, expect := 0, total := 0, known := false, firstMissing := 0xFFFF, missingCount := 0 } }

/-- `begin_recv()` (R202). -/
def State.beginRecv (s : State) : State :=
  let s := (((s.setResult .none 0).clearSessionFlags).clearCounters).emptyReassembly
  let s := { s with rx := { s.rx with outLen := 0 } }
  (s.setRxLast .none 0 0).goto .rListen

/-- The effect of `START_RECV` in IDLE (R200). -/
def runStartRecv (s : State) : State :=
  if s.validateRecv ≠ 0 then s.refuseStart s.validateRecv else s.beginRecv

/-- `START_RECV` (R200). -/
def execStartRecv (s : State) : Host.Outcome State Fault Refusal := s.whenIdle runStartRecv

/-! ## Taking a message -/

/-- `drop_malformed(d)` (R206). -/
def State.dropMalformed (d : Malformed) (s : State) : State :=
  ((s.cntInc .malformed).setFlag .malformed).setRxLast .malformed d.code 0

/-- `nak_checksum(F)` (R207). -/
def State.nakChecksum (F : Frame) (s : State) : State :=
  let s := ((s.cntInc .csum).setFlag .csumErr).setRxLast .csumMismatch 0 F.chunkId
  (s.offer (ackMsg F.chunkId false)).goto .rAck

/-- Why the acceptance check refuses a frame (R209). -/
inductive Reject where
  | range | capacity | totalMismatch | oversize
  deriving DecidableEq, Repr

/-- The number of a refusal (R209, spec/10_state.md R39). -/
def Reject.code : Reject → BitVec 8
  | .range => 1
  | .capacity => 2
  | .totalMismatch => 3
  | .oversize => 4

/-- `accept_check(F)`: the first failing check, or nothing (R209). -/
def State.acceptCheck (F : Frame) (s : State) : Option Reject :=
  if F.chunkId.toNat ≥ F.totalChunks.toNat then some .range
  else if F.totalChunks.toNat > s.params.maxChunks then some .capacity
  else if s.rx.known = true ∧ F.totalChunks ≠ s.rx.total then some .totalMismatch
  else if F.data.length > s.cfg.chunkSize.toNat then some .oversize
  else none

/-- `reject(F, r)` (R211). -/
def State.rejectFrame (F : Frame) (r : Reject) (s : State) : State :=
  let s := ((s.cntInc .reject).setFlag .reject).setRxLast .rejected r.code F.chunkId
  (s.offer (ackMsg F.chunkId false)).goto .rAck

/-! ## Storing a frame -/

/-- How a stored frame arrived (R214). -/
inductive Arrival where
  | inOrder | duplicate | outOfOrder
  deriving DecidableEq, Repr

/-- The DETAIL of a stored frame (spec/10_state.md R39). -/
def Arrival.code : Arrival → BitVec 8
  | .inOrder => 0
  | .duplicate => 1
  | .outOfOrder => 2

/-- The kind `detect(i)` returns (R214). -/
def State.arrival (i : BitVec 16) (s : State) : Arrival :=
  if s.valid i.toNat then .duplicate
  else if i = s.rx.expect then .inOrder
  else .outOfOrder

/-- What `detect(i)` changes: the flag and counter of the kind, and `RX_EXPECT <- max(RX_EXPECT, i + 1)` (R214). -/
def State.detect (i : BitVec 16) (s : State) : State :=
  let s' :=
    match s.arrival i with
    | .duplicate => (s.cntInc .dup).setFlag .dup
    | .inOrder => s
    | .outOfOrder => (s.cntInc .ooo).setFlag .ooo
  { s' with rx := { s'.rx with expect := BitVec.ofNat 16 (max s.rx.expect.toNat (i.toNat + 1)) } }

/-- "if RX_KNOWN = 0: RX_TOTAL <- total; RX_KNOWN <- 1" (R210, R212). -/
def State.learnTotal (total : BitVec 16) (s : State) : State :=
  if s.rx.known = false then { s with rx := { s.rx with total := total, known := true } } else s

/-- "SLOT[i] <- d; SLOT_LEN[i] <- len(d); if VALID[i] = 0: VALID[i] <- 1; RX_COUNT <- RX_COUNT + 1" (R212). -/
def State.writeSlot (i : BitVec 16) (d : List Byte) (s : State) : State :=
  { s with
    slots := Sparse.set i.toNat d s.slots
    rx := { s.rx with count := if s.valid i.toNat then s.rx.count else s.rx.count + 1 } }

/-- `store(F)` (R212). -/
def State.store (F : Frame) (s : State) : State :=
  let i := F.chunkId
  let kind := s.arrival i
  let s := (((s.learnTotal F.totalChunks).detect i).writeSlot i F.data).cntInc .rxok
  ((s.setRxLast .stored kind.code i).offer (ackMsg i true)).goto .rAck

/-! ## Completion on the sentinel -/

/-- `SLOT[0] ++ … ++ SLOT[n-1]`, each up to its length (R215). -/
def State.assemble (s : State) (n : Nat) : List Byte := (List.range n).flatMap fun i => s.slotData i

/-- `min{ i < n | VALID[i] = 0 }`; 0xFFFF, "none", where the set is empty, which no run reaches here (R215, log 8). -/
def State.firstMissing (s : State) (n : Nat) : BitVec 16 :=
  match (List.range n).find? fun i => !s.valid i with
  | some i => BitVec.ofNat 16 i
  | none => 0xFFFF

/-- `RX_FIRST_MISSING <- f; RX_MISSING_COUNT <- c`. -/
def State.setMissing (f c : BitVec 16) (s : State) : State :=
  { s with rx := { s.rx with firstMissing := f, missingCount := c } }

/-- `complete()` (R215). -/
def State.complete (s : State) : State :=
  let s := s.setRxLast .sentinel 0 0
  if s.rx.known = true ∧ s.rx.count = s.rx.total then
    let out := s.assemble s.rx.total.toNat
    let s := s.memWrite .out 0 out
    let s := { s with rx := { s.rx with outLen := BitVec.ofNat 24 out.length } }
    (s.setMissing 0xFFFF 0).finish .recvAssembled 0
  else if s.rx.known = false then (s.setMissing 0xFFFF 0).finish .recvIncomplete 1
  else (s.setMissing (s.firstMissing s.rx.total.toNat) (s.rx.total - s.rx.count)).finish .recvIncomplete 2

/-! ## Events -/

/-- What VALIDATE does with a decoded frame: checksum, acceptance, store, in this order (R204). -/
def State.takeFrame (F : Frame) (s : State) : State :=
  if checksum F.data ≠ F.checksum then s.nakChecksum F
  else
    match s.acceptCheck F with
    | some r => s.rejectFrame F r
    | none => s.store F

/-- `RxDeliver(st, m)` in R_LISTEN: VALIDATE (R204, R205). -/
def receiverRxDeliver (st : Status) (m : List Byte) (s : State) : State :=
  match st with
  | .fail => s
  | .ok =>
    if isSentinel m then s.complete
    else
      match decodeFrame s.params.maxMsg m s.cfg.coding with
      | .error d => s.dropMalformed d
      | .ok F => s.takeFrame F

/-- `TxDone(st)` in R_ACK (R217). -/
def receiverTxDone (st : Status) (s : State) : State :=
  match st with
  | .ok => (s.cntInc .txmsg).goto .rListen
  | .fail => ((s.cntInc .txerr).setFlag .txErr).goto .rListen

end Sys2Proof.Machine
end

