-- ==== Sys2Proof/Machine/Control.lean ====
section
/-! DEFINITION. The control commands (spec/44_control.md R240 to R242). -/

namespace Sys2Proof.Machine

/-- `NOP` (R240): accepted in every STATE, changes nothing. -/
def execNop (s : State) : Host.Outcome State Fault Refusal := .next s

/-- The effect of `ABORT` (R241): nothing in IDLE; in a sender state the timer stops and the offer is withdrawn; in a
receiver state the reassembly buffer is discarded; then `finish(CANCELLED, s)`. -/
def runAbort (s : State) : State :=
  match s.engine with
  | .idle => s
  | .sSend | .sWait | .sEnd => (s.setTxTimer 0).finish .cancelled (s.engine.code.setWidth 8)
  | .rListen | .rAck => s.emptyReassembly.finish .cancelled (s.engine.code.setWidth 8)

/-- `ABORT` (R241): accepted in every STATE. -/
def execAbort (s : State) : Host.Outcome State Fault Refusal := .next (runAbort s)

/-- The effect of `CLEAR` in IDLE: `RESULT <- 0; FLAGS <- 0; every CNT_* <- 0` (R242). -/
def runClear (s : State) : State := ({ s.setResult .none 0 with flags := 0 }).clearCounters

/-- `CLEAR` (R242). -/
def execClear (s : State) : Host.Outcome State Fault Refusal := s.whenIdle runClear

end Sys2Proof.Machine
end

