-- ==== Sys2Proof/Machine/Dispatch.lean ====
section
/-! DEFINITION. One arm per command: the meaning of a `CMD` write that the decoder accepts (spec/30_encoding.md R81). -/

namespace Sys2Proof.Machine

def exec (i : Instr) (s : State) : Host.Outcome State Fault Refusal :=
  match i with
  | .nop => Sys2Proof.Machine.execNop s
  | .startSend => Sys2Proof.Machine.execStartSend s
  | .startRecv => Sys2Proof.Machine.execStartRecv s
  | .abort => Sys2Proof.Machine.execAbort s
  | .clear => Sys2Proof.Machine.execClear s
  | .opChecksum => Sys2Proof.Machine.execOpChecksum s
  | .opEncode => Sys2Proof.Machine.execOpEncode s
  | .opDecode => Sys2Proof.Machine.execOpDecode s
  | .opFragment => Sys2Proof.Machine.execOpFragment s
  | .opEncAck => Sys2Proof.Machine.execOpEncAck s
  | .opDecAck => Sys2Proof.Machine.execOpDecAck s
  | .opEncSentinel => Sys2Proof.Machine.execOpEncSentinel s
  | .opIsSentinel => Sys2Proof.Machine.execOpIsSentinel s

end Sys2Proof.Machine
end

