-- ==== Sys2Proof/Machine/HostPort.lean ====
section
/-! DEFINITION. The host's register window and byte port (spec/20_memory.md R60 to R67), with the register layouts of
spec/10_state.md and the issue of a command by a write to `CMD` (spec/30_encoding.md R82). -/

namespace Sys2Proof.Machine

/-! ## The register window -/

/-- The registers of the window (R60). -/
inductive HostReg where
  | id | cmd | cfg | chunkSize | maxRetries | ackTimeout | payloadLen | status | result | flags
  | txPos | txRetry | txFailId | rxTotal | rxCount | rxMissing | outLen | opStatus | csumOut
  | fChunkId | fTotal | fChecksum | fLen | msgLen | ackCtrl | ackExpect | bufSel | bufAddr | bufData
  | txLen | rxLast | cnt0 | cnt1 | cnt2 | cnt3 | cnt4 | cnt5
  deriving DecidableEq, Repr

/-- The register at a byte offset; none at a misaligned or reserved offset, which R63 treats alike. -/
def HostReg.ofOffset (off : BitVec 8) : Option HostReg :=
  match off.toNat with
  | 0x00 => some .id
  | 0x04 => some .cmd
  | 0x08 => some .cfg
  | 0x0C => some .chunkSize
  | 0x10 => some .maxRetries
  | 0x14 => some .ackTimeout
  | 0x18 => some .payloadLen
  | 0x1C => some .status
  | 0x20 => some .result
  | 0x24 => some .flags
  | 0x28 => some .txPos
  | 0x2C => some .txRetry
  | 0x30 => some .txFailId
  | 0x34 => some .rxTotal
  | 0x38 => some .rxCount
  | 0x3C => some .rxMissing
  | 0x40 => some .outLen
  | 0x44 => some .opStatus
  | 0x48 => some .csumOut
  | 0x4C => some .fChunkId
  | 0x50 => some .fTotal
  | 0x54 => some .fChecksum
  | 0x58 => some .fLen
  | 0x5C => some .msgLen
  | 0x60 => some .ackCtrl
  | 0x64 => some .ackExpect
  | 0x68 => some .bufSel
  | 0x6C => some .bufAddr
  | 0x70 => some .bufData
  | 0x74 => some .txLen
  | 0x78 => some .rxLast
  | 0x80 => some .cnt0
  | 0x84 => some .cnt1
  | 0x88 => some .cnt2
  | 0x8C => some .cnt3
  | 0x90 => some .cnt4
  | 0x94 => some .cnt5
  | _ => none

/-- A refused host access sets `FLAGS.HOST_ERR` (spec/60_exceptions.md R264). -/
def State.hostError (s : State) : State := s.setFlag .hostErr

/-! ## Reading a register -/

/-- `STATUS` (spec/10_state.md R28): STATE, BUSY, RX_READY, TX_OFFER, IRQ. -/
def State.statusWord (s : State) : Word :=
  (BitVec.ofBool s.irq ++ BitVec.ofBool s.engine.offering ++ BitVec.ofBool s.engine.receiveReady ++
    BitVec.ofBool (decide (s.engine ≠ .idle)) ++ s.engine.code).setWidth 32

/-- The value of a register with "every res0 bit 0 and every field in its bit position" (R62). `CMD` reads 0 (R64);
`BUF_DATA` has no value of its own: a read of it is `State.readPort`. -/
def State.readReg (s : State) : HostReg → Word
  | .id => 0x43540100
  | .cmd => 0
  | .cfg => (BitVec.ofBool s.cfg.irqEn ++ BitVec.ofBool s.cfg.strayPolicy ++ s.cfg.coding.bit).setWidth 32
  | .chunkSize => s.cfg.chunkSize.setWidth 32
  | .maxRetries => s.cfg.maxRetries.setWidth 32
  | .ackTimeout => s.cfg.ackTimeout.setWidth 32
  | .payloadLen => s.cfg.payloadLen.setWidth 32
  | .status => s.statusWord
  | .result => (s.result.detail ++ s.result.code.code).setWidth 32
  | .flags => s.flags.setWidth 32
  | .txPos => s.tx.total ++ s.tx.chunk
  | .txRetry => s.tx.timer ++ s.tx.last.code ++ s.tx.attempt
  | .txFailId => s.tx.failId.setWidth 32
  | .rxTotal => (BitVec.ofBool s.rx.known ++ s.rx.total).setWidth 32
  | .rxCount => s.rx.expect ++ s.rx.count
  | .rxMissing => s.rx.missingCount ++ s.rx.firstMissing
  | .outLen => s.rx.outLen.setWidth 32
  | .opStatus => (s.scratch.opStatus.detail ++ s.scratch.opStatus.code.code).setWidth 32
  | .csumOut => s.scratch.csumOut.setWidth 32
  | .fChunkId => s.scratch.fChunkId.setWidth 32
  | .fTotal => s.scratch.fTotal.setWidth 32
  | .fChecksum => s.scratch.fChecksum.setWidth 32
  | .fLen => s.scratch.fLen.setWidth 32
  | .msgLen => s.scratch.msgLen.setWidth 32
  | .ackCtrl => (BitVec.ofBool s.scratch.ackOk ++ s.scratch.ackId).setWidth 32
  | .ackExpect => s.scratch.ackExpect.setWidth 32
  | .bufSel => s.port.sel.setWidth 32
  | .bufAddr => s.port.addr.setWidth 32
  | .bufData => 0
  | .txLen => s.txLen.setWidth 32
  | .rxLast => s.rx.last.id ++ s.rx.last.detail ++ s.rx.last.event.code
  | .cnt0 => s.cnt.txerr ++ s.cnt.txmsg
  | .cnt1 => s.cnt.timeout ++ s.cnt.retry
  | .cnt2 => s.cnt.stray ++ s.cnt.nak
  | .cnt3 => s.cnt.malformed ++ s.cnt.rxok
  | .cnt4 => s.cnt.reject ++ s.cnt.csum
  | .cnt5 => s.cnt.ooo ++ s.cnt.dup

/-! ## The byte port (R66) -/

/-- The buffers of R61, by `BUF_SEL`. -/
inductive PortSel where
  /-- A buffer with storage: selects 0, 1, 2, 3, 5. -/
  | storage (b : Buffer)
  /-- Select 4, the view `BITMAP`. -/
  | bitmap
  /-- Selects 6 and 7. -/
  | reserved
  deriving DecidableEq, Repr

/-- What a `BUF_SEL` value selects (R61). -/
def PortSel.ofSel (sel : BitVec 3) : PortSel :=
  match sel.toNat with
  | 0 => .storage .payload
  | 1 => .storage .msg
  | 2 => .storage .data
  | 3 => .storage .out
  | 4 => .bitmap
  | 5 => .storage .txmsg
  | _ => .reserved

/-- `cap(sel)` (R61). -/
def State.portCapacity (s : State) : PortSel → Nat
  | .storage b => s.capacity b
  | .bitmap => s.bitmapCapacity
  | .reserved => 0

/-- `BUF_ADDR <- (a + 1) mod 2^24`, at every access of `BUF_DATA`. -/
def State.portAdvance (s : State) : State := { s with port := { s.port with addr := s.port.addr + 1 } }

/-- The byte a read of `BUF_DATA` returns where it is not refused: 0 of `OUT` at or above `OUT_LEN` (R50, R66). -/
def State.portByte (s : State) (sel : PortSel) (a : Nat) : Byte :=
  match sel with
  | .storage .out => if a ≥ s.rx.outLen.toNat then 0 else s.byteAt .out a
  | .storage b => s.byteAt b a
  | .bitmap => s.bitmapByte a
  | .reserved => 0

/-- The value a host access returns. -/
def State.replyWith (v : Word) (s : State) : State := { s with reply := some v }

/-- `HostRead(0x70)` (R66). -/
def State.readPort (s : State) : State :=
  let sel := PortSel.ofSel s.port.sel
  let a := s.port.addr.toNat
  if sel = .reserved ∨ a ≥ s.portCapacity sel then (s.hostError.portAdvance).replyWith 0
  else s.portAdvance.replyWith ((s.portByte sel a).setWidth 32)

/-- Whether the host may write a buffer now: never `OUT`, `BITMAP`, `TXMSG`; `PAYLOAD` only in IDLE (R61, R65, R66). -/
def State.portWritable (s : State) : PortSel → Option Buffer
  | .storage .payload => if s.engine = .idle then some .payload else none
  | .storage .msg => some .msg
  | .storage .data => some .data
  | .storage .out | .storage .txmsg | .bitmap | .reserved => none

/-- `HostWrite(0x70, v)` (R66). -/
def State.writePort (v : Word) (s : State) : State :=
  let sel := PortSel.ofSel s.port.sel
  let a := s.port.addr.toNat
  match s.portWritable sel with
  | none => s.hostError.portAdvance
  | some b =>
    if a ≥ s.portCapacity sel then s.hostError.portAdvance
    else (s.memWrite b a [v.extractLsb' 0 8]).portAdvance

/-! ## Host accesses -/

/-- `HostRead(off)` (R62, R63, R66, R67). -/
def hostRead (off : BitVec 8) (s : State) : State :=
  match HostReg.ofOffset off with
  | none => s.hostError.replyWith 0
  | some .bufData => s.readPort
  | some r => s.replyWith (s.readReg r)

/-- A write to the configuration: refused while `STATUS.STATE ≠ IDLE` (R65). -/
def State.writeConfig (f : ConfigRegs → ConfigRegs) (s : State) : State :=
  if s.engine = .idle then { s with cfg := f s.cfg } else s.hostError

/-- A write to a scratch register, "accepted in every state" (R65). -/
def State.writeScratch (f : ScratchRegs → ScratchRegs) (s : State) : State := { s with scratch := f s.scratch }

/-- `HostWrite(0x04, v)`: the command runs, or is refused (spec/30_encoding.md R82). -/
def issueCommand (v : Word) (s : State) : Host.Outcome State Fault Refusal :=
  match decodeWord v with
  | .error _ => .next s.refuseCommand
  | .ok i => exec i s

/-- A write to a register of the window: each field from the same bits of `v`, res0 bits ignored (R62); a read-only
register refuses it (R64). -/
def writeReg (r : HostReg) (v : Word) (s : State) : Host.Outcome State Fault Refusal :=
  match r with
  | .cmd => issueCommand v s
  | .cfg => .next (s.writeConfig fun c =>
      { c with coding := Coding.ofBit (v.getLsbD 0), strayPolicy := v.getLsbD 1, irqEn := v.getLsbD 2 })
  | .chunkSize => .next (s.writeConfig fun c => { c with chunkSize := v.extractLsb' 0 8 })
  | .maxRetries => .next (s.writeConfig fun c => { c with maxRetries := v.extractLsb' 0 8 })
  | .ackTimeout => .next (s.writeConfig fun c => { c with ackTimeout := v.extractLsb' 0 16 })
  | .payloadLen => .next (s.writeConfig fun c => { c with payloadLen := v.extractLsb' 0 24 })
  | .flags => .next (s.clearFlagsWritten v)
  | .fChunkId => .next (s.writeScratch fun c => { c with fChunkId := v.extractLsb' 0 16 })
  | .fTotal => .next (s.writeScratch fun c => { c with fTotal := v.extractLsb' 0 16 })
  | .fChecksum => .next (s.writeScratch fun c => { c with fChecksum := v.extractLsb' 0 8 })
  | .fLen => .next (s.writeScratch fun c => { c with fLen := v.extractLsb' 0 16 })
  | .msgLen => .next (s.writeScratch fun c => { c with msgLen := v.extractLsb' 0 16 })
  | .ackCtrl => .next (s.writeScratch fun c => { c with ackId := v.extractLsb' 0 16, ackOk := v.getLsbD 16 })
  | .ackExpect => .next (s.writeScratch fun c => { c with ackExpect := v.extractLsb' 0 16 })
  | .bufSel => .next { s with port := { s.port with sel := v.extractLsb' 0 3 } }
  | .bufAddr => .next { s with port := { s.port with addr := v.extractLsb' 0 24 } }
  | .bufData => .next (s.writePort v)
  | .id | .status | .result | .txPos | .txRetry | .txFailId | .rxTotal | .rxCount | .rxMissing => .next s.hostError
  | .outLen | .opStatus | .csumOut | .txLen | .rxLast => .next s.hostError
  | .cnt0 | .cnt1 | .cnt2 | .cnt3 | .cnt4 | .cnt5 => .next s.hostError

/-- `HostWrite(off, v)` (R62 to R67). -/
def hostWrite (off : BitVec 8) (v : Word) (s : State) : Host.Outcome State Fault Refusal :=
  match HostReg.ofOffset off with
  | none => .next s.hostError
  | some r => writeReg r v s

end Sys2Proof.Machine
end

