-- ==== Sys2Proof/Machine/Events.lean ====
section
/-! DEFINITION. The six atomic events (spec/00_scope.md R9), each in every state (spec/44_control.md R243), and the
event a host's command write is (spec/20_memory.md R67). -/

namespace Sys2Proof.Machine

/-- `Reset` (spec/70_reset_and_hazards.md R300): every register at its reset value, storage unspecified anew (R301). The
parameters are the block's; the events the environment still has in store are its own ("Messages waiting in the
transport belong to the transport, and `Reset` does not remove them"). -/
def State.resetEvent (s : State) : State :=
  { State.resetWith s.params with inputs := s.inputs, resets := s.resets + 1 }

/-- `Tick` (spec/42_sender.md R172): it counts in S_WAIT; "in every other STATE a `Tick` changes nothing". -/
def tick (s : State) : State :=
  match s.engine with
  | .sWait => senderTick s
  | .idle | .sSend | .sEnd | .rListen | .rAck => s

/-- `RxDeliver(st, m)`: taken in S_WAIT and R_LISTEN, not enabled elsewhere (R10). -/
def rxDeliver (st : Status) (m : List Byte) (s : State) : Host.Outcome State Fault Refusal :=
  match s.engine with
  | .sWait => .next (senderRxDeliver st m s)
  | .rListen => .next (receiverRxDeliver st m s)
  | .idle | .sSend | .sEnd | .rAck => .fault .rxDeliverNotEnabled

/-- `TxDone(st)`: taken in S_SEND, S_END and R_ACK, not enabled elsewhere (R10). -/
def txDone (st : Status) (s : State) : Host.Outcome State Fault Refusal :=
  match s.engine with
  | .sSend =>
    match st with
    | .ok => .next (senderTxDoneOk s)
    | .fail => .next (senderTxDoneFail s)
  | .sEnd => .next (sentinelTxDone st s)
  | .rAck => .next (receiverTxDone st s)
  | .idle | .sWait | .rListen => .fault .txDoneNotEnabled

/-- One event in one state. -/
def perform (e : Event) (s : State) : Host.Outcome State Fault Refusal :=
  match e with
  | .reset => .next s.resetEvent
  | .hostWrite off v => hostWrite off v s
  | .hostRead off => .next (hostRead off s)
  | .tick => .next (tick s)
  | .rxDeliver st m => rxDeliver st m s
  | .txDone st => txDone st s

/-- The next event of the environment's choice, and the state it is performed in: the event taken from the list, and no
reply yet (log 1, log 9). -/
def State.takeEvent (s : State) : Option (Event × State) :=
  match s.inputs with
  | [] => none
  | e :: rest => some (e, { s with inputs := rest, reply := none })

/-- The host's write of a command word: `HostWrite(0x04, v)` (R67). -/
def commandWrite (v : Word) : Event := .hostWrite 0x04 v

end Sys2Proof.Machine
end

