-- ==== Sys2Proof/Machine/Step.lean ====
section
/-! DEFINITION. One step: one event of the environment's choice (spec/00_scope.md R9, R10). -/

namespace Sys2Proof.Machine

/-- The next event happens. With no event waiting nothing changes: "the engine takes no step by itself" (R10; log 2). -/
def step (s : State) : Host.Outcome State Fault Refusal :=
  match s.takeEvent with
  | none => .next s
  | some (e, s') => perform e s'

/-- The state in which the host's next event is the write of this word to `CMD`: "commands arrive whole as `CMD` writes"
(spec/20_memory.md R74; log 1, log 16). -/
def State.withFetchWord (s : State) (nbits w : Nat) : State :=
  { s with inputs := commandWrite (BitVec.ofNat 32 (w % 2 ^ nbits)) :: s.inputs }

end Sys2Proof.Machine
end

