-- ==== Sys2Proof/Machine/Link.lean ====
section
/-! DEFINITION. Two blocks on one link (spec/60_exceptions.md R275): "they share no state"; a link agent takes what one
block offers and may deliver it to the other, lose it, duplicate it, delay it or corrupt it (spec/00_scope.md R11). The
moves and their order are the environment's (log 15). -/

namespace Sys2Proof.Machine

/-- One of the two blocks. -/
inductive Side where
  | a | b
  deriving DecidableEq, Repr

/-- The other block. -/
def Side.other : Side → Side
  | .a => .b
  | .b => .a

/-- Two blocks and the messages the link holds for each. DESIGN CHOICE: blocks with equal `resets` read the same unwritten
buffer bytes (log 21). -/
structure System where
  a : State
  b : State
  /-- Messages the link holds for block A. -/
  toA : List (List Byte)
  /-- Messages the link holds for block B. -/
  toB : List (List Byte)
  deriving DecidableEq, Repr

/-- What can happen next in the system. -/
inductive LinkMove where
  /-- A `Reset`, a host access or a `Tick` at one block. -/
  | own (side : Side) (e : Event)
  /-- The link takes the message this block offers: `TxDone(OK)`. -/
  | take (side : Side)
  /-- The block's transport cannot send: `TxDone(FAIL)`. -/
  | takeFail (side : Side)
  /-- The link delivers the `n`-th message it holds for this block: `RxDeliver(OK, m)`. -/
  | deliver (side : Side) (n : Nat)
  /-- The block's transport reports a failed receive: `RxDeliver(FAIL, [])`. -/
  | rxFail (side : Side)
  /-- The link loses the `n`-th message it holds for this block. -/
  | lose (side : Side) (n : Nat)
  /-- The link duplicates it. -/
  | duplicate (side : Side) (n : Nat)
  /-- The link corrupts it to `m`. -/
  | corrupt (side : Side) (n : Nat) (m : List Byte)
  deriving DecidableEq, Repr

/-- The block of a side. -/
def System.block (y : System) : Side → State
  | .a => y.a
  | .b => y.b

/-- The messages held for a side. -/
def System.held (y : System) : Side → List (List Byte)
  | .a => y.toA
  | .b => y.toB

/-- The system with one block replaced. -/
def System.setBlock (y : System) (side : Side) (s : State) : System :=
  match side with
  | .a => { y with a := s }
  | .b => { y with b := s }

/-- The system with the messages held for a side replaced. -/
def System.setHeld (y : System) (side : Side) (l : List (List Byte)) : System :=
  match side with
  | .a => { y with toA := l }
  | .b => { y with toB := l }

/-- The events that are not the link's: those that no message carries. -/
def Event.isLocal : Event → Bool
  | .reset | .hostWrite _ _ | .hostRead _ | .tick => true
  | .rxDeliver _ _ | .txDone _ => false

/-- One event at one block; nothing where the event is not enabled. -/
def System.event (y : System) (side : Side) (e : Event) : Option System :=
  match perform e (y.block side) with
  | .next s => some (y.setBlock side s)
  | .fault _ => none
  | .refused _ => none

/-- One move; nothing where the move is not possible. "The link holds a message for a block until that block is
receive-ready": `RxDeliver` is not enabled before. -/
def System.move (y : System) : LinkMove → Option System
  | .own side e => if e.isLocal then y.event side e else none
  | .take side =>
    match (y.block side).txPort with
    | none => none
    | some m => (y.setHeld side.other (y.held side.other ++ [m])).event side (.txDone .ok)
  | .takeFail side => y.event side (.txDone .fail)
  | .deliver side n =>
    match (y.held side)[n]? with
    | none => none
    | some m => (y.setHeld side ((y.held side).eraseIdx n)).event side (.rxDeliver .ok m)
  | .rxFail side => y.event side (.rxDeliver .fail [])
  | .lose side n => some (y.setHeld side ((y.held side).eraseIdx n))
  | .duplicate side n =>
    match (y.held side)[n]? with
    | none => none
    | some m => some (y.setHeld side (y.held side ++ [m]))
  | .corrupt side n m => some (y.setHeld side ((y.held side).set n m))

/-- A run of moves. -/
def System.run (y : System) : List LinkMove → Option System
  | [] => some y
  | m :: ms =>
    match y.move m with
    | none => none
    | some y' => y'.run ms

/-- A move of an undisturbed transfer over a link that corrupts nothing: the hosts only read, and every message
delivered is one that was offered and taken (R275). -/
def LinkMove.faithful : LinkMove → Bool
  | .own _ .tick => true
  | .own _ (.hostRead _) => true
  | .own _ .reset => false
  | .own _ (.hostWrite _ _) => false
  | .own _ (.rxDeliver _ _) => false
  | .own _ (.txDone _) => false
  | .take _ | .takeFail _ | .deliver _ _ | .rxFail _ | .lose _ _ | .duplicate _ _ => true
  | .corrupt _ _ _ => false

end Sys2Proof.Machine
end

