-- ==== Sys2Proof/Safety.lean ====
section
/-! DEFINITION. What claims speak of: which bytes a step may change, the invariants of spec/10_state.md R53, the bounds
of every buffer (spec/00_scope.md R16), and a host-free receive session. -/

namespace Sys2Proof.Machine

/-! ## Messages, spelled out

What a statement says a message holds, in numerals, apart from the functions the machine builds and reads it with. -/

/-- A byte TEXT coding can carry (spec/30_encoding.md R88). -/
abbrev SafeByte (b : Byte) : Prop := 0x20 ≤ b.toNat ∧ b.toNat ≤ 0x7E ∧ b.toNat ≠ 0x7C

/-- The digits HEX coding writes, from 0 to F (R88). -/
def hexDigits : List Byte :=
  [0x30, 0x31, 0x32, 0x33, 0x34, 0x35, 0x36, 0x37, 0x38, 0x39, 0x41, 0x42, 0x43, 0x44, 0x45, 0x46]

/-- The upper-case HEX spelling of data: the high nibble, then the low nibble of each byte (R88). -/
def hexSpelling (d : List Byte) : List Byte :=
  d.flatMap fun b => [hexDigits.getD (b.toNat / 16) 0, hexDigits.getD (b.toNat % 16) 0]

/-- The upper-case spelling of a hexadecimal digit (spec/40_codec.md R115). -/
def upperHexDigit (b : Byte) : Byte := if 0x61 ≤ b.toNat ∧ b.toNat ≤ 0x66 then b - 0x20 else b

/-- A data field the decoder takes for `d`: the data itself, all of it safe, or its HEX spelling in either case (R88). -/
def SpellsData (c : Coding) (d f : List Byte) : Prop :=
  match c with
  | .text => f = d ∧ ∀ b ∈ d, SafeByte b
  | .hex => f.map upperHexDigit = hexSpelling d

/-- Four fields with the delimiter 0x7C between them (R84, R85). -/
def fourFields (f1 f2 f3 f4 : List Byte) : List Byte := f1 ++ [0x7C] ++ f2 ++ [0x7C] ++ f3 ++ [0x7C] ++ f4

/-- The message of a frame (R85). -/
def frameBytes (F : Frame) (c : Coding) : List Byte :=
  fourFields (dec F.chunkId.toNat) (dec F.totalChunks.toNat) (dec F.checksum.toNat)
    (match c with
      | .text => F.data
      | .hex => hexSpelling F.data)

/-- The message `m` decodes to `F` in a block whose messages hold `P` bytes (spec/40_codec.md R114). -/
def CarriesFrame (P : Nat) (m : List Byte) (c : Coding) (F : Frame) : Prop :=
  m.length ≤ P ∧ ∃ f, SpellsData c F.data f ∧
    m = fourFields (dec F.chunkId.toNat) (dec F.totalChunks.toNat) (dec F.checksum.toNat) f

/-- The field is the canonical decimal of a number up to `maxv` (spec/30_encoding.md R86). -/
def IsDecimal (f : List Byte) (maxv : Nat) : Prop := ∃ n, n ≤ maxv ∧ f = dec n

/-- The message `m` fails to decode, and `d` is the number of the first failing check (R114): 6 TOO_LONG, 1 PARTS,
2 BAD_CHUNK_ID, 3 BAD_TOTAL, 4 BAD_CHECKSUM, 5 BAD_DATA, in this order. -/
def FailsDecode (P : Nat) (m : List Byte) (c : Coding) (d : BitVec 8) : Prop :=
  m.length > P ∧ d = 6 ∨
  m.length ≤ P ∧ m.count 0x7C ≠ 3 ∧ d = 1 ∨
  m.length ≤ P ∧ m.count 0x7C = 3 ∧ ∃ f1 f2 f3 f4, m = fourFields f1 f2 f3 f4 ∧
    (¬ IsDecimal f1 65535 ∧ d = 2 ∨
      IsDecimal f1 65535 ∧ ¬ IsDecimal f2 65535 ∧ d = 3 ∨
      IsDecimal f1 65535 ∧ IsDecimal f2 65535 ∧ ¬ IsDecimal f3 255 ∧ d = 4 ∨
      IsDecimal f1 65535 ∧ IsDecimal f2 65535 ∧ IsDecimal f3 255 ∧ (∀ x, ¬ SpellsData c x f4) ∧ d = 5)

/-! ## Frames: bytes read as before -/

/-- Every byte of buffer `b` reads as before. -/
def SameBytes (s t : State) (b : Buffer) : Prop := ∀ a, t.byteAt b a = s.byteAt b a

/-- Every byte of buffer `b` at or above address `n` reads as before. -/
def SameBytesFrom (s t : State) (b : Buffer) (n : Nat) : Prop := ∀ a, n ≤ a → t.byteAt b a = s.byteAt b a

/-- Every byte of every buffer other than `b` reads as before. -/
def SameOtherBuffers (s t : State) (b : Buffer) : Prop := ∀ b', b' ≠ b → SameBytes s t b'

/-- Buffer `b` holds `m` from address 0 on, its bytes above are as before, and so is every other buffer. -/
def BufferHolds (s t : State) (b : Buffer) (m : List Byte) : Prop :=
  t.memRead b 0 m.length = m ∧ SameBytesFrom s t b m.length ∧ SameOtherBuffers s t b

/-- The transmit port presents `m`: `TXMSG[0..TX_LEN) = m`, and no other byte of any buffer changed. -/
def Offers (s t : State) (m : List Byte) : Prop :=
  t.txPort = some m ∧ SameBytesFrom s t .txmsg m.length ∧ SameOtherBuffers s t .txmsg

/-- `t` is `s` but for the buffers, TX_LEN and what `f` changes. -/
def SameButOffer (s t : State) (f : State → State) : Prop := t = { f s with txLen := t.txLen, bufs := t.bufs }

/-! ## How a command or an event ends -/

/-- A command answers the state that differs in `OP_STATUS` alone (spec/10_state.md R40). -/
def EndsWithOpStatus (i : Instr) (s : State) (code : OpCode) (detail : BitVec 8) : Prop :=
  exec i s = .next { s with scratch := { s.scratch with opStatus := { code := code, detail := detail } } }

/-- A command answers a state with `m` in `MSG`, its length in `MSG_LEN` and `OP_STATUS = {OK, 0}`; nothing else
changed. -/
def EndsWithMessage (i : Instr) (s : State) (m : List Byte) : Prop :=
  ∃ t, exec i s = .next t ∧ BufferHolds s t .msg m ∧
    t = { s with
          bufs := t.bufs
          scratch := { s.scratch with
            msgLen := BitVec.ofNat 16 m.length, opStatus := { code := .ok, detail := 0 } } }

/-- A refused start: `RESULT = {CFG_ERROR, d}` and `FLAGS.DONE`, nothing else (spec/10_state.md R30). -/
def EndsWithCfgError (i : Instr) (s : State) (d : BitVec 8) : Prop :=
  exec i s = .next { s with result := { code := .cfgError, detail := d }, flags := s.flags ||| 0b1#10 }

/-- `t` is `s` after an attempt failed for cause `r` (spec/42_sender.md R164), with the counter `c` and the flags `fl` of
the cause: the same frame is offered again, or the session ends in SEND_RETRY_EXHAUSTED. -/
def FailedAttempt (s t : State) (c : Counter) (fl : BitVec 10) (r : TxLast) : Prop :=
  if s.tx.attempt < s.cfg.maxRetries then
    Offers s t (frameBytes (s.sendFrame s.tx.chunk) s.cfg.coding) ∧
    SameButOffer s t fun s =>
      { s with
        engine := .sSend
        tx := { s.tx with attempt := s.tx.attempt + 1, last := r, timer := 0 }
        cnt := (s.cnt.inc c).inc .retry
        flags := s.flags ||| fl ||| 0b1000000000#10 }
  else
    t = { s with
          engine := .idle
          tx := { s.tx with last := r, timer := 0, failId := s.tx.chunk }
          cnt := s.cnt.inc c
          flags := s.flags ||| fl ||| 0b1#10
          result := { code := .sendRetryExhausted, detail := r.code } }

/-- A negative acknowledgement of `id` is offered, with the counter, the flag bit and `RX_LAST` of the cause; the slots and the
receiver's progress are as before (spec/43_receiver.md R207, R211). -/
def NegativelyAcked (s t : State) (id : BitVec 16) (c : Counter) (fl : BitVec 10) (last : RxLast) : Prop :=
  Offers s t (ackMsg id false) ∧
  SameButOffer s t fun s =>
    { s with engine := .rAck, cnt := s.cnt.inc c, flags := s.flags ||| fl, rx := { s.rx with last := last } }

/-! ## The invariants of R53 -/

/-- A sender session's start conditions still hold: configuration and payload are frozen while it runs
(spec/20_memory.md R65, R75). -/
abbrev State.inSenderSession (s : State) : Prop := s.engine = .sSend ∨ s.engine = .sWait ∨ s.engine = .sEnd

/-- STATE ∈ {R_LISTEN, R_ACK}. -/
abbrev State.inReceiverSession (s : State) : Prop := s.engine = .rListen ∨ s.engine = .rAck

/-- The invariants of R53 (item 1 holds by type), with the canonical forms of the memory and the slots, and what makes
them inductive: a sender session keeps its validated configuration and payload. -/
structure Inv (s : State) : Prop where
  params : s.params.wf = true
  memory : ∀ b, Memory.wf (s.bufs.get b)
  slots : Sparse.wf s.slots
  /-- item 2: `RX_COUNT = |{i | VALID[i] = 1}|`. -/
  count : s.rx.count.toNat = s.slots.length
  /-- item 3: `VALID[i] = 1` implies `RX_KNOWN = 1` and `i < RX_TOTAL`. -/
  validKnown : ∀ i, s.valid i = true → s.rx.known = true ∧ i < s.rx.total.toNat
  /-- item 3: `RX_TOTAL ≤ P_MAX_CHUNKS`. -/
  totalFits : s.rx.total.toNat ≤ s.params.maxChunks
  /-- a slot holds `SLOT_BYTES` bytes (R51). -/
  slotFits : ∀ i, (s.slotData i).length ≤ Config.slotBytes
  /-- item 3: while receiving, `SLOT_LEN[i] ≤ CHUNK_SIZE`. -/
  slotChunk : s.inReceiverSession → ∀ i, (s.slotData i).length ≤ s.cfg.chunkSize.toNat
  /-- item 4. -/
  sending : s.engine = .sSend ∨ s.engine = .sWait →
    s.tx.chunk.toNat < s.tx.total.toNat ∧ 1 ≤ s.tx.attempt.toNat ∧ s.tx.attempt.toNat ≤ s.cfg.maxRetries.toNat
  /-- item 5. -/
  ending : s.engine = .sEnd → s.tx.chunk = s.tx.total
  /-- item 6. -/
  timerRuns : s.tx.timer ≠ 0 → s.engine = .sWait
  /-- item 6. -/
  timerBound : s.engine = .sWait → 1 ≤ s.tx.timer.toNat ∧ s.tx.timer.toNat ≤ s.cfg.ackTimeout.toNat
  /-- item 7. -/
  outLen : s.inReceiverSession → s.rx.outLen = 0
  /-- item 8. -/
  expectKnown : s.rx.known = true → s.rx.expect.toNat ≤ s.rx.total.toNat
  /-- item 8. -/
  expectUnknown : s.rx.known = false → s.rx.expect = 0 ∧ s.rx.total = 0
  /-- a sender session's configuration and payload pass R161, and its TX_TOTAL is theirs. -/
  validated : s.inSenderSession →
    s.validateSend = 0 ∧ s.tx.total.toNat = chunkCount s.cfg.payloadLen.toNat s.cfg.chunkSize.toNat

/-- "Neither primitive ever goes past the buffer's capacity" (spec/00_scope.md R16): every byte ever written lies below
its buffer's capacity, and an offered message fits. -/
structure WithinCapacity (s : State) : Prop where
  written : ∀ b a, (Sparse.get? a (s.bufs.get b)).isSome = true → a < s.capacity b
  offered : s.txLen.toNat ≤ s.params.maxMsg
  assembled : s.rx.outLen.toNat ≤ s.capacity .out

/-! ## Runs of events -/

/-- The events happen one after the other; nothing where one of them is not enabled. -/
def State.performAll (s : State) : List Event → Option State
  | [] => some s
  | e :: es =>
    match perform e s with
    | .next t => t.performAll es
    | .fault _ => none
    | .refused _ => none

/-- A frame delivered once for each status of the list, each time with the `TxDone` of its acknowledgement. -/
def deliverFrame (c : Coding) (F : Frame) (sts : List Status) : List Event :=
  sts.flatMap fun st => [.rxDeliver .ok (frameBytes F c), .txDone st]

/-- Every frame in order, each as often as its list says, then the sentinel (spec/43_receiver.md R219 item 3). -/
def deliverTransfer (c : Coding) (Fs : List (Frame × List Status)) : List Event :=
  Fs.flatMap (fun p => deliverFrame c p.1 p.2) ++ [.rxDeliver .ok [0x45, 0x4E, 0x44]]

end Sys2Proof.Machine
end

