-- ==== Sys2Proof/Certificates/Slice0/Obligations.lean ====
section
/-! DEFINITION. The statements for the provers. Each docstring names the rule of spec/ it states. -/

open Sys2Proof Sys2Proof.Machine

/-! ## Steps, commands and their words -/

/-- R67: "A `HostWrite(0x04, v)` issues the command `v`". One step performs the environment's next event; when that is the
write of a word that decodes to a command, it is that command's meaning. With no event waiting nothing changes (the
model's choice, log 1 and log 2). -/
def Obligations.StepRunsTheCommandWritten : Prop :=
  ∀ (s : State) (e : Event) (rest : List Event) (v : Word) (i : Instr),
    (s.inputs = [] → step s = .next s) ∧
    (s.inputs = e :: rest → step s = perform e { s with inputs := rest, reply := none }) ∧
    (s.inputs = commandWrite v :: rest → decodeWord v = .ok i → i.wf = true →
      step s = exec i { s with inputs := rest, reply := none })

/-- R81: the words of the 13 commands, and words just outside the map. -/
def Obligations.CommandWordsDecode : Prop :=
  decodeWord 0x00000000 = .ok .nop ∧ decodeWord 0x00000001 = .ok .startSend ∧ decodeWord 0x00000002 = .ok .startRecv ∧
  decodeWord 0x00000003 = .ok .abort ∧ decodeWord 0x00000004 = .ok .clear ∧ decodeWord 0x00000010 = .ok .opChecksum ∧
  decodeWord 0x00000011 = .ok .opEncode ∧ decodeWord 0x00000012 = .ok .opDecode ∧
  decodeWord 0x00000013 = .ok .opFragment ∧ decodeWord 0x00000014 = .ok .opEncAck ∧
  decodeWord 0x00000015 = .ok .opDecAck ∧ decodeWord 0x00000016 = .ok .opEncSentinel ∧
  decodeWord 0x00000017 = .ok .opIsSentinel ∧
  decodeWord 0x00000005 = .error .unassignedOpcode ∧ decodeWord 0x0000000F = .error .unassignedOpcode ∧
  decodeWord 0x00000018 = .error .unassignedOpcode ∧ decodeWord 0x000000FF = .error .unassignedOpcode ∧
  decodeWord 0x00000100 = .error .reservedBitsSet

/-- R80, R81: a word is a command exactly when it is that command's OPCODE with bits 31:8 zero. -/
def Obligations.WordIsCommandExactlyAsEncoded : Prop :=
  ∀ (v : Word) (i : Instr), decodeWord v = .ok i ↔ v = encode i

/-- R82: a refused command "has exactly one effect: `FLAGS.CMD_ERR <- 1`": reserved bits set, an unassigned OPCODE, or an
IDLE-only command while a session runs. -/
def Obligations.RefusedCommandSetsCmdErrOnly : Prop :=
  ∀ (s : State) (rest : List Event) (v : Word), s.inputs = commandWrite v :: rest →
    (v.extractLsb' 8 24 ≠ 0#24 ∨ (∀ i : Instr, i.opcode ≠ v.extractLsb' 0 8) ∨
      (s.engine ≠ .idle ∧ ∃ i : Instr, i ≠ .nop ∧ i ≠ .abort ∧ v = encode i)) →
    step s = .next { s with inputs := rest, reply := none, flags := s.flags ||| 0b10#10 }

/-! ## Control commands -/

/-- R240: `NOP` changes nothing, in every STATE. -/
def Obligations.NopChangesNothing : Prop := ∀ s : State, exec .nop s = .next s

/-- R241: `ABORT` in every STATE. -/
def Obligations.AbortCancelsTheSession : Prop :=
  ∀ s : State,
    (s.engine = .idle → exec .abort s = .next s) ∧
    (s.engine = .sSend ∨ s.engine = .sWait ∨ s.engine = .sEnd → exec .abort s = .next { s with
      result := { code := .cancelled, detail := s.engine.code.setWidth 8 }
      engine := .idle
      flags := s.flags ||| 0b1#10
      tx := { s.tx with timer := 0 } }) ∧
    (s.engine = .rListen ∨ s.engine = .rAck → exec .abort s = .next { s with
      result := { code := .cancelled, detail := s.engine.code.setWidth 8 }
      engine := .idle
      flags := s.flags ||| 0b1#10
      tx := { s.tx with timer := 0 }
      slots := []
      rx := { s.rx with
        count := 0, expect := 0, total := 0, known := false, firstMissing := 0xFFFF, missingCount := 0 } })

/-- R242: `CLEAR` empties RESULT, FLAGS and the counters in IDLE, and is refused elsewhere. -/
def Obligations.ClearEmptiesResultFlagsCounters : Prop :=
  ∀ s : State,
    (s.engine = .idle → ∃ t, exec .clear s = .next t ∧
      t = { s with result := { code := .none, detail := 0 }, flags := 0, cnt := t.cnt } ∧
      ∀ c : Counter, t.cnt.get c = 0) ∧
    (s.engine ≠ .idle → exec .clear s = .next { s with flags := s.flags ||| 0b10#10 })

/-! ## Codec commands -/

/-- R120: `OP_CHECKSUM` in IDLE. -/
def Obligations.ChecksumCommand : Prop :=
  ∀ s : State, s.engine = .idle →
    (s.scratch.fLen.toNat > s.params.maxMsg → EndsWithOpStatus .opChecksum s .badArg 1) ∧
    (s.scratch.fLen.toNat ≤ s.params.maxMsg → exec .opChecksum s = .next { s with scratch := { s.scratch with
      csumOut := BitVec.ofNat 8 (((s.memRead .data 0 s.scratch.fLen.toNat).map BitVec.toNat).sum % 256)
      opStatus := { code := .ok, detail := 0 } } })

/-- R121: `OP_ENCODE` in IDLE, with the message of R85 and the safe bytes of R88 written out. -/
def Obligations.EncodeCommand : Prop :=
  ∀ (s : State) (F : Frame) (m : List Byte), s.engine = .idle →
    F = { chunkId := s.scratch.fChunkId, totalChunks := s.scratch.fTotal, checksum := s.scratch.fChecksum,
          data := s.memRead .data 0 s.scratch.fLen.toNat } →
    m = dec F.chunkId.toNat ++ [0x7C] ++ dec F.totalChunks.toNat ++ [0x7C] ++ dec F.checksum.toNat ++ [0x7C] ++
      (match s.cfg.coding with
        | .text => F.data
        | .hex => hexSpelling F.data) →
    (s.scratch.fLen.toNat > s.params.maxMsg → EndsWithOpStatus .opEncode s .badArg 1) ∧
    (s.scratch.fLen.toNat ≤ s.params.maxMsg → s.cfg.coding = .text → (∃ b ∈ F.data, ¬ SafeByte b) →
      EndsWithOpStatus .opEncode s .unsafeByte 0) ∧
    (s.scratch.fLen.toNat ≤ s.params.maxMsg → (s.cfg.coding = .hex ∨ ∀ b ∈ F.data, SafeByte b) →
      (m.length > s.params.maxMsg → EndsWithOpStatus .opEncode s .tooLong 0) ∧
      (m.length ≤ s.params.maxMsg → EndsWithMessage .opEncode s m))

/-- R122: `OP_DECODE` in IDLE, with the checks of `decode` (R114) and their numbers written out in `FailsDecode` and
`CarriesFrame`. -/
def Obligations.DecodeCommand : Prop :=
  ∀ (s : State) (m : List Byte), s.engine = .idle → m = s.memRead .msg 0 s.scratch.msgLen.toNat →
    (s.scratch.msgLen.toNat > s.params.maxMsg → EndsWithOpStatus .opDecode s .badArg 2) ∧
    (s.scratch.msgLen.toNat ≤ s.params.maxMsg →
      (∀ d, FailsDecode s.params.maxMsg m s.cfg.coding d → EndsWithOpStatus .opDecode s .malformed d) ∧
      (∀ F, CarriesFrame s.params.maxMsg m s.cfg.coding F →
        ∃ t, exec .opDecode s = .next t ∧ BufferHolds s t .data F.data ∧
          t = { s with
                bufs := t.bufs
                scratch := { s.scratch with
                  fChunkId := F.chunkId, fTotal := F.totalChunks, fChecksum := F.checksum,
                  fLen := BitVec.ofNat 16 F.data.length, csumOut := checksum F.data,
                  opStatus := { code := .ok, detail := 0 } } }))

/-- R123: `OP_FRAGMENT` in IDLE: the first failing check of the rule's order, or frame k of the payload. -/
def Obligations.FragmentCommand : Prop :=
  ∀ (s : State) (S L k n : Nat) (d : List Byte), s.engine = .idle →
    S = s.cfg.chunkSize.toNat → L = s.cfg.payloadLen.toNat → k = s.scratch.fChunkId.toNat → n = (L + S - 1) / S →
    d = s.memRead .payload (k * S) (min ((k + 1) * S) L - k * S) →
    (S = 0 → EndsWithOpStatus .opFragment s .badArg 3) ∧
    (S ≠ 0 → (L = 0 ∨ L > s.params.payloadBytes) → EndsWithOpStatus .opFragment s .badArg 4) ∧
    (S ≠ 0 → L ≠ 0 → L ≤ s.params.payloadBytes →
      (n > 65535 → EndsWithOpStatus .opFragment s .badArg 6) ∧
      (n ≤ 65535 → k ≥ n → EndsWithOpStatus .opFragment s .badArg 5) ∧
      (n ≤ 65535 → k < n → d.length > s.params.maxMsg → EndsWithOpStatus .opFragment s .badArg 1) ∧
      (n ≤ 65535 → k < n → d.length ≤ s.params.maxMsg →
        ∃ t, exec .opFragment s = .next t ∧ BufferHolds s t .data d ∧
          t = { s with
                bufs := t.bufs
                scratch := { s.scratch with
                  fTotal := BitVec.ofNat 16 n, fLen := BitVec.ofNat 16 d.length, fChecksum := checksum d,
                  csumOut := checksum d, opStatus := { code := .ok, detail := 0 } } }))

/-! ## Acknowledgement and sentinel commands -/

/-- R146: `OP_ENC_ACK` in IDLE. -/
def Obligations.EncAckCommand : Prop :=
  ∀ s : State, s.engine = .idle →
    (s.scratch.ackOk = true → EndsWithMessage .opEncAck s ([0x41, 0x43, 0x4B, 0x7C] ++ dec s.scratch.ackId.toNat)) ∧
    (s.scratch.ackOk = false → EndsWithMessage .opEncAck s ([0x45, 0x52, 0x52, 0x7C] ++ dec s.scratch.ackId.toNat))

/-- R147: `OP_DEC_ACK` in IDLE, with `parse_ack` of R141. -/
def Obligations.DecAckCommand : Prop :=
  ∀ (s : State) (m : List Byte), s.engine = .idle → m = s.memRead .msg 0 s.scratch.msgLen.toNat →
    (s.scratch.msgLen.toNat > s.params.maxMsg → EndsWithOpStatus .opDecAck s .badArg 2) ∧
    (s.scratch.msgLen.toNat ≤ s.params.maxMsg →
      (parseAck s.params.maxMsg m = none → EndsWithOpStatus .opDecAck s .notAnAck 0) ∧
      (∀ ok id, parseAck s.params.maxMsg m = some (ok, id) →
        exec .opDecAck s = .next { s with scratch := { s.scratch with
          ackId := id
          ackOk := ok
          opStatus :=
            { code := if id ≠ s.scratch.ackExpect then .ackUnmatched else if ok then .ackMatchedOk else .ackMatchedErr
              detail := 0 } } }))

/-- R148: `OP_ENC_SENTINEL` in IDLE writes the three bytes "END". -/
def Obligations.EncSentinelCommand : Prop :=
  ∀ s : State, s.engine = .idle → EndsWithMessage .opEncSentinel s [0x45, 0x4E, 0x44]

/-- R149: `OP_IS_SENTINEL` in IDLE. -/
def Obligations.IsSentinelCommand : Prop :=
  ∀ (s : State) (m : List Byte), s.engine = .idle → m = s.memRead .msg 0 s.scratch.msgLen.toNat →
    (s.scratch.msgLen.toNat > s.params.maxMsg → EndsWithOpStatus .opIsSentinel s .badArg 2) ∧
    (s.scratch.msgLen.toNat ≤ s.params.maxMsg → m = [0x45, 0x4E, 0x44] →
      EndsWithOpStatus .opIsSentinel s .isSentinel 0) ∧
    (s.scratch.msgLen.toNat ≤ s.params.maxMsg → m ≠ [0x45, 0x4E, 0x44] →
      EndsWithOpStatus .opIsSentinel s .notSentinel 0)

/-! ## The sender -/

/-- R160, R161: `START_SEND` reports the first failing check of PREPARE and changes nothing else. -/
def Obligations.StartSendReportsFirstFailingCheck : Prop :=
  ∀ (s : State) (S L n : Nat) (P : List Byte), s.engine = .idle →
    S = s.cfg.chunkSize.toNat → L = s.cfg.payloadLen.toNat → n = (L + S - 1) / S → P = s.memRead .payload 0 L →
    (S = 0 → EndsWithCfgError .startSend s 1) ∧
    (S ≠ 0 → s.cfg.maxRetries = 0 → EndsWithCfgError .startSend s 2) ∧
    (S ≠ 0 → s.cfg.maxRetries ≠ 0 → s.cfg.ackTimeout = 0 → EndsWithCfgError .startSend s 3) ∧
    (S ≠ 0 → s.cfg.maxRetries ≠ 0 → s.cfg.ackTimeout ≠ 0 →
      (L = 0 → EndsWithCfgError .startSend s 4) ∧
      (L > s.params.payloadBytes → L ≠ 0 → EndsWithCfgError .startSend s 5) ∧
      (L ≠ 0 → L ≤ s.params.payloadBytes → n > 65535 → EndsWithCfgError .startSend s 6) ∧
      (L ≠ 0 → L ≤ s.params.payloadBytes → n ≤ 65535 → s.cfg.coding = .text → (∃ b ∈ P, ¬ SafeByte b) →
        EndsWithCfgError .startSend s 7) ∧
      (L ≠ 0 → L ≤ s.params.payloadBytes → n ≤ 65535 → (s.cfg.coding = .hex ∨ ∀ b ∈ P, SafeByte b) →
        (∃ F ∈ fragment P S, (frameBytes F s.cfg.coding).length > s.params.maxMsg) →
        EndsWithCfgError .startSend s 8))

/-- R160 to R163: a `START_SEND` that passes every check begins a session and offers frame 0 of
`fragment(PAYLOAD[0..PAYLOAD_LEN), CHUNK_SIZE)`. -/
def Obligations.StartSendOffersFrameZero : Prop :=
  ∀ (s : State) (S L n : Nat) (P : List Byte), s.engine = .idle →
    S = s.cfg.chunkSize.toNat → L = s.cfg.payloadLen.toNat → n = (L + S - 1) / S → P = s.memRead .payload 0 L →
    S ≠ 0 → s.cfg.maxRetries ≠ 0 → s.cfg.ackTimeout ≠ 0 → L ≠ 0 → L ≤ s.params.payloadBytes → n ≤ 65535 →
    (s.cfg.coding = .hex ∨ ∀ b ∈ P, SafeByte b) →
    (∀ F ∈ fragment P S, (frameBytes F s.cfg.coding).length ≤ s.params.maxMsg) →
    ∃ t F, exec .startSend s = .next t ∧ (fragment P S)[0]? = some F ∧ Offers s t (frameBytes F s.cfg.coding) ∧
      SameButOffer s t fun s =>
        { s with
          engine := .sSend
          result := { code := .none, detail := 0 }
          flags := s.flags &&& 0b0000000110#10
          cnt := Counters.zero
          tx := { chunk := 0, total := BitVec.ofNat 16 n, attempt := 1, last := .none, timer := 0, failId := 0xFFFF } }

/-- R172: a `Tick` counts in S_WAIT, times out as TX_TIMER reaches 0, and changes nothing in any other STATE. A TX_TIMER of
0 in S_WAIT is excluded by the invariant of R53. -/
def Obligations.TickCountsTheAckWait : Prop :=
  ∀ s : State,
    (s.engine ≠ .sWait → perform .tick s = .next s) ∧
    (s.engine = .sWait → 2 ≤ s.tx.timer.toNat →
      perform .tick s = .next { s with tx := { s.tx with timer := s.tx.timer - 1 } }) ∧
    (s.engine = .sWait → s.tx.timer = 1 →
      ∃ t, perform .tick s = .next t ∧ FailedAttempt s t .timeout 0 .timeout)

/-- R170, R171: `TxDone` of a frame. -/
def Obligations.FrameTxDone : Prop :=
  ∀ s : State, s.engine = .sSend →
    perform (.txDone .ok) s = .next { s with
      cnt := s.cnt.inc .txmsg, tx := { s.tx with timer := s.cfg.ackTimeout }, engine := .sWait } ∧
    ∃ t, perform (.txDone .fail) s = .next t ∧ FailedAttempt s t .txerr 0b0100000000#10 .txFail

/-- R173, R175: the awaited `ACK|TX_CHUNK` advances: the next frame is offered, or the sentinel after the last. -/
def Obligations.MatchingAckAdvances : Prop :=
  ∀ s : State, s.engine = .sWait → s.params.wf = true →
    (s.tx.chunk + 1 = s.tx.total →
      ∃ t, perform (.rxDeliver .ok (ackMsg s.tx.chunk true)) s = .next t ∧ Offers s t [0x45, 0x4E, 0x44] ∧
        SameButOffer s t fun s =>
          { s with engine := .sEnd, tx := { s.tx with chunk := s.tx.chunk + 1, last := .acked, timer := 0 } }) ∧
    (s.tx.chunk + 1 ≠ s.tx.total →
      ∃ t, perform (.rxDeliver .ok (ackMsg s.tx.chunk true)) s = .next t ∧
        Offers s t (frameBytes (s.sendFrame (s.tx.chunk + 1)) s.cfg.coding) ∧
        SameButOffer s t fun s =>
          { s with
            engine := .sSend, tx := { s.tx with chunk := s.tx.chunk + 1, attempt := 1, last := .acked, timer := 0 } })

/-- R173, R174: the awaited `ERR|TX_CHUNK` is a failed attempt; a stray message is one under STRAY_POLICY 0 and is only
recorded under STRAY_POLICY 1. -/
def Obligations.ErrAndStrayMessages : Prop :=
  ∀ (s : State) (m : List Byte) (r : TxLast), s.engine = .sWait → s.params.wf = true →
    (∃ t, perform (.rxDeliver .ok (ackMsg s.tx.chunk false)) s = .next t ∧ FailedAttempt s t .nak 0 .nak) ∧
    (((∃ id ok, id ≠ s.tx.chunk ∧ m = ackMsg id ok) ∧ r = .unmatched ∨
      (∀ id ok, m ≠ ackMsg id ok) ∧ r = .notAnAck) →
      (s.cfg.strayPolicy = false →
        ∃ t, perform (.rxDeliver .ok m) s = .next t ∧ FailedAttempt s t .stray 0 r) ∧
      (s.cfg.strayPolicy = true →
        perform (.rxDeliver .ok m) s = .next { s with cnt := s.cnt.inc .stray, tx := { s.tx with last := r } }))

/-- R178: `TxDone` of the sentinel ends the session. -/
def Obligations.SentinelTxDone : Prop :=
  ∀ s : State, s.engine = .sEnd →
    perform (.txDone .ok) s = .next { s with
      cnt := s.cnt.inc .txmsg
      result := { code := .sendSuccess, detail := 0 }
      tx := { s.tx with timer := 0 }
      engine := .idle
      flags := s.flags ||| 0b1#10 } ∧
    perform (.txDone .fail) s = .next { s with
      cnt := s.cnt.inc .txerr
      result := { code := .sendSentinelTxFail, detail := 0 }
      tx := { s.tx with timer := 0 }
      engine := .idle
      flags := s.flags ||| 0b0100000001#10 }

/-! ## The receiver -/

/-- R200 to R202: `START_RECV` in IDLE is refused with detail 1 or begins a session with an empty reassembly buffer;
elsewhere the command is refused. -/
def Obligations.StartRecvBeginsEmpty : Prop :=
  ∀ s : State,
    (s.engine = .idle → s.cfg.chunkSize = 0 → EndsWithCfgError .startRecv s 1) ∧
    (s.engine = .idle → s.cfg.chunkSize ≠ 0 → exec .startRecv s = .next { s with
      result := { code := .none, detail := 0 }
      flags := s.flags &&& 0b0000000110#10
      cnt := Counters.zero
      slots := []
      rx :=
        { total := 0, known := false, count := 0, expect := 0, firstMissing := 0xFFFF, missingCount := 0, outLen := 0,
          last := { event := .none, detail := 0, id := 0 } }
      engine := .rListen }) ∧
    (s.engine ≠ .idle → exec .startRecv s = .next { s with flags := s.flags ||| 0b10#10 })

/-- R173, R204: `RxDeliver(FAIL, _)` is "no message yet" in both roles. -/
def Obligations.FailedReceiveChangesNothing : Prop :=
  ∀ (s : State) (m : List Byte), s.engine = .sWait ∨ s.engine = .rListen →
    perform (.rxDeliver .fail m) s = .next s

/-- R206: a message that is neither the sentinel nor a frame is dropped without an answer; `d` is the number of the first
failing check of R114. -/
def Obligations.MalformedMessageDropped : Prop :=
  ∀ (s : State) (m : List Byte) (d : BitVec 8), s.engine = .rListen → m ≠ [0x45, 0x4E, 0x44] →
    FailsDecode s.params.maxMsg m s.cfg.coding d →
    perform (.rxDeliver .ok m) s = .next { s with
      cnt := s.cnt.inc .malformed
      flags := s.flags ||| 0b0000100000#10
      rx := { s.rx with last := { event := .malformed, detail := d, id := 0 } } }

/-- R207: a frame whose checksum disagrees is answered with `ERR|chunk_id` and stores nothing. -/
def Obligations.ChecksumMismatchNegativelyAcked : Prop :=
  ∀ (s : State) (m : List Byte) (F : Frame), s.engine = .rListen →
    CarriesFrame s.params.maxMsg m s.cfg.coding F → checksum F.data ≠ F.checksum →
    ∃ t, perform (.rxDeliver .ok m) s = .next t ∧
      NegativelyAcked s t F.chunkId .csum 0b0001000000#10 { event := .csumMismatch, detail := 0, id := F.chunkId }

/-- R209, R211: a frame that fails the acceptance check is answered with `ERR|chunk_id` and stores nothing; the first
failing check is reported. -/
def Obligations.RejectedFrameNegativelyAcked : Prop :=
  ∀ (s : State) (m : List Byte) (F : Frame) (d : BitVec 8), s.engine = .rListen →
    CarriesFrame s.params.maxMsg m s.cfg.coding F → checksum F.data = F.checksum →
    (F.chunkId.toNat ≥ F.totalChunks.toNat ∧ d = 1 ∨
      F.chunkId.toNat < F.totalChunks.toNat ∧
        (F.totalChunks.toNat > s.params.maxChunks ∧ d = 2 ∨
          F.totalChunks.toNat ≤ s.params.maxChunks ∧
            (s.rx.known = true ∧ F.totalChunks ≠ s.rx.total ∧ d = 3 ∨
              (s.rx.known = false ∨ F.totalChunks = s.rx.total) ∧
                F.data.length > s.cfg.chunkSize.toNat ∧ d = 4))) →
    ∃ t, perform (.rxDeliver .ok m) s = .next t ∧
      NegativelyAcked s t F.chunkId .reject 0b0010000000#10 { event := .rejected, detail := d, id := F.chunkId }

/-- R210, R212, R214: a frame that passes is stored, classified and answered with `ACK|chunk_id`. -/
def Obligations.AcceptedFrameStored : Prop :=
  ∀ (s : State) (m : List Byte) (F : Frame), s.engine = .rListen →
    CarriesFrame s.params.maxMsg m s.cfg.coding F → checksum F.data = F.checksum →
    F.chunkId.toNat < F.totalChunks.toNat → F.totalChunks.toNat ≤ s.params.maxChunks →
    (s.rx.known = false ∨ F.totalChunks = s.rx.total) → F.data.length ≤ s.cfg.chunkSize.toNat →
    ∃ t, perform (.rxDeliver .ok m) s = .next t ∧
      Offers s t (ackMsg F.chunkId true) ∧
      (∀ i, t.valid i = (s.valid i || decide (i = F.chunkId.toNat))) ∧
      (∀ i, t.slotData i = if i = F.chunkId.toNat then F.data else s.slotData i) ∧
      SameButOffer s t fun s =>
        { s with
          engine := .rAck
          slots := t.slots
          cnt := (if s.valid F.chunkId.toNat then s.cnt.inc .dup
                  else if F.chunkId = s.rx.expect then s.cnt else s.cnt.inc .ooo).inc .rxok
          flags := if s.valid F.chunkId.toNat then s.flags ||| 0b0000010000#10
                   else if F.chunkId = s.rx.expect then s.flags else s.flags ||| 0b0000001000#10
          rx :=
            { s.rx with
              total := if s.rx.known then s.rx.total else F.totalChunks
              known := true
              count := if s.valid F.chunkId.toNat then s.rx.count else s.rx.count + 1
              expect := BitVec.ofNat 16 (max s.rx.expect.toNat (F.chunkId.toNat + 1))
              last :=
                { event := .stored
                  detail := if s.valid F.chunkId.toNat then 1 else if F.chunkId = s.rx.expect then 0 else 2
                  id := F.chunkId } } }

/-- R215: the sentinel in R_LISTEN: the assembled payload, or RECV_INCOMPLETE with what is missing. -/
def Obligations.SentinelCompletes : Prop :=
  ∀ (s : State) (out : List Byte), s.engine = .rListen →
    out = (List.range s.rx.total.toNat).flatMap (fun i => s.slotData i) →
    (s.rx.known = true → s.rx.count = s.rx.total →
      ∃ t, perform (.rxDeliver .ok [0x45, 0x4E, 0x44]) s = .next t ∧ BufferHolds s t .out out ∧
        t = { s with
              bufs := t.bufs
              engine := .idle
              result := { code := .recvAssembled, detail := 0 }
              flags := s.flags ||| 0b1#10
              tx := { s.tx with timer := 0 }
              rx := { s.rx with
                outLen := BitVec.ofNat 24 out.length, firstMissing := 0xFFFF, missingCount := 0,
                last := { event := .sentinel, detail := 0, id := 0 } } }) ∧
    (s.rx.known = false →
      perform (.rxDeliver .ok [0x45, 0x4E, 0x44]) s = .next { s with
        engine := .idle
        result := { code := .recvIncomplete, detail := 1 }
        flags := s.flags ||| 0b1#10
        tx := { s.tx with timer := 0 }
        rx := { s.rx with
          firstMissing := 0xFFFF, missingCount := 0, last := { event := .sentinel, detail := 0, id := 0 } } }) ∧
    (s.rx.known = true → s.rx.count ≠ s.rx.total →
      ∃ t, perform (.rxDeliver .ok [0x45, 0x4E, 0x44]) s = .next t ∧
        (∀ i, i < s.rx.total.toNat → s.valid i = false → (∀ j, j < i → s.valid j = true) →
          t.rx.firstMissing = BitVec.ofNat 16 i) ∧
        t = { s with
              engine := .idle
              result := { code := .recvIncomplete, detail := 2 }
              flags := s.flags ||| 0b1#10
              tx := { s.tx with timer := 0 }
              rx := { s.rx with
                firstMissing := t.rx.firstMissing, missingCount := s.rx.total - s.rx.count,
                last := { event := .sentinel, detail := 0, id := 0 } } })

/-- R217: `TxDone` of an acknowledgement; R316, with R16 and R46: what counting is, for every counter, up to and at
0xFFFF. -/
def Obligations.AckTxDone : Prop :=
  (∀ s : State, s.engine = .rAck →
    perform (.txDone .ok) s = .next { s with cnt := s.cnt.inc .txmsg, engine := .rListen } ∧
    perform (.txDone .fail) s = .next { s with
      cnt := s.cnt.inc .txerr, flags := s.flags ||| 0b0100000000#10, engine := .rListen }) ∧
  ∀ (k : Counters) (c d : Counter),
    ((k.inc c).get d).toNat = (if d = c then min ((k.get d).toNat + 1) 0xFFFF else (k.get d).toNat) ∧
    (k.get c = 0xFFFF → k.inc c = k) ∧
    [Counter.txmsg, .txerr, .retry, .timeout, .nak, .stray, .rxok, .malformed, .csum, .reject, .dup, .ooo].map k.get =
      [k.txmsg, k.txerr, k.retry, k.timeout, k.nak, k.stray, k.rxok, k.malformed, k.csum, k.reject, k.dup, k.ooo]

/-! ## Events and the host -/

/-- R10, R180: `RxDeliver` is taken exactly in S_WAIT and R_LISTEN, `TxDone` exactly in S_SEND, S_END and R_ACK; elsewhere
the event has no step, which the model answers by a fault (log 3). -/
def Obligations.EventsTakenExactlyWhereEnabled : Prop :=
  ∀ (s : State) (st : Status) (m : List Byte),
    (s.engine = .sWait ∨ s.engine = .rListen → ∃ t, perform (.rxDeliver st m) s = .next t) ∧
    (s.engine ≠ .sWait → s.engine ≠ .rListen → perform (.rxDeliver st m) s = .fault .rxDeliverNotEnabled) ∧
    (s.engine = .sSend ∨ s.engine = .sEnd ∨ s.engine = .rAck → ∃ t, perform (.txDone st) s = .next t) ∧
    (s.engine ≠ .sSend → s.engine ≠ .sEnd → s.engine ≠ .rAck →
      perform (.txDone st) s = .fault .txDoneNotEnabled)

/-- R63, R64: a misaligned or reserved offset reads 0 and is not written; a read-only register is not written; each sets
FLAGS.HOST_ERR and nothing else. `CMD` reads 0 and sets no flag. What a read returns stands in `reply` (log 9). -/
def Obligations.RefusedHostAccess : Prop :=
  ∀ (s : State) (off : BitVec 8) (v : Word),
    (off.toNat % 4 ≠ 0 ∨ off.toNat = 0x7C ∨ 0x98 ≤ off.toNat →
      perform (.hostRead off) s = .next { s with flags := s.flags ||| 0b100#10, reply := some 0 } ∧
      perform (.hostWrite off v) s = .next { s with flags := s.flags ||| 0b100#10 }) ∧
    (off.toNat ∈ [0x00, 0x1C, 0x20, 0x28, 0x2C, 0x30, 0x34, 0x38, 0x3C, 0x40, 0x44, 0x48, 0x74, 0x78,
        0x80, 0x84, 0x88, 0x8C, 0x90, 0x94] →
      perform (.hostWrite off v) s = .next { s with flags := s.flags ||| 0b100#10 }) ∧
    perform (.hostRead 0x04) s = .next { s with reply := some 0 }

/-- R65: while a session runs the configuration and the payload are not written. -/
def Obligations.BusyWritesRefused : Prop :=
  ∀ (s : State) (off : BitVec 8) (v : Word), s.engine ≠ .idle →
    (off.toNat ∈ [0x08, 0x0C, 0x10, 0x14, 0x18] →
      perform (.hostWrite off v) s = .next { s with flags := s.flags ||| 0b100#10 }) ∧
    (s.port.sel = 0 →
      perform (.hostWrite 0x70 v) s = .next { s with
        flags := s.flags ||| 0b100#10, port := { s.port with addr := s.port.addr + 1 } })

/-- R62: a write of an RW register writes each field from its bits (R23 to R27, R42 to R45), is read back with its res0
bits 0, and changes no other register but STATUS.IRQ; a write to FLAGS clears the bits written 1. -/
def Obligations.WritableRegistersReadBack : Prop :=
  ∀ (s : State) (off : BitVec 8) (v mask : Word),
    (s.engine = .idle → ∀ p ∈
      ([(0x08, { s with cfg := { s.cfg with
            coding := if v.getLsbD 0 then .hex else .text, strayPolicy := v.getLsbD 1, irqEn := v.getLsbD 2 } }),
        (0x0C, { s with cfg := { s.cfg with chunkSize := v.extractLsb' 0 8 } }),
        (0x10, { s with cfg := { s.cfg with maxRetries := v.extractLsb' 0 8 } }),
        (0x14, { s with cfg := { s.cfg with ackTimeout := v.extractLsb' 0 16 } }),
        (0x18, { s with cfg := { s.cfg with payloadLen := v.extractLsb' 0 24 } })] : List (BitVec 8 × State)),
      perform (.hostWrite p.1 v) s = .next p.2) ∧
    (∀ p ∈
      ([(0x4C, { s with scratch := { s.scratch with fChunkId := v.extractLsb' 0 16 } }),
        (0x50, { s with scratch := { s.scratch with fTotal := v.extractLsb' 0 16 } }),
        (0x54, { s with scratch := { s.scratch with fChecksum := v.extractLsb' 0 8 } }),
        (0x58, { s with scratch := { s.scratch with fLen := v.extractLsb' 0 16 } }),
        (0x5C, { s with scratch := { s.scratch with msgLen := v.extractLsb' 0 16 } }),
        (0x60, { s with scratch := { s.scratch with ackId := v.extractLsb' 0 16, ackOk := v.getLsbD 16 } }),
        (0x64, { s with scratch := { s.scratch with ackExpect := v.extractLsb' 0 16 } }),
        (0x68, { s with port := { s.port with sel := v.extractLsb' 0 3 } }),
        (0x6C, { s with port := { s.port with addr := v.extractLsb' 0 24 } })] : List (BitVec 8 × State)),
      perform (.hostWrite p.1 v) s = .next p.2) ∧
    ((off, mask) ∈ ([(0x08, 0x7), (0x0C, 0xFF), (0x10, 0xFF), (0x14, 0xFFFF), (0x18, 0xFFFFFF)] :
        List (BitVec 8 × Word)) ∧ s.engine = .idle ∨
      (off, mask) ∈ ([(0x4C, 0xFFFF), (0x50, 0xFFFF), (0x54, 0xFF), (0x58, 0xFFFF), (0x5C, 0xFFFF), (0x60, 0x1FFFF),
        (0x64, 0xFFFF), (0x68, 0x7), (0x6C, 0xFFFFFF)] : List (BitVec 8 × Word)) →
      ∃ t, perform (.hostWrite off v) s = .next t ∧
        perform (.hostRead off) t = .next { t with reply := some (v &&& mask) } ∧
        t = { s with cfg := t.cfg, scratch := t.scratch, port := t.port } ∧
        ∀ r, r ≠ .status → HostReg.ofOffset off ≠ some r → t.readReg r = s.readReg r) ∧
    perform (.hostWrite 0x24 v) s = .next { s with flags := s.flags &&& ~~~(v.setWidth 10) }

/-- R62, R67 and R21 to R46: a `HostRead` of a register other than `BUF_DATA` changes nothing and returns the register:
each field at its bits, its res0 bits 0, at its offset of R60; and the numbers of the enumerated fields. What a read
returns stands in `reply` (log 9). -/
def Obligations.HostReadReturnsFields : Prop :=
  ∀ s : State,
    (∀ off r, HostReg.ofOffset off = some r → r ≠ .bufData →
      perform (.hostRead off) s = .next { s with reply := some (s.readReg r) }) ∧
    (∀ p ∈
      ([(0x00, 0x43540100), (0x04, 0),
        (0x08, 0#29 ++ BitVec.ofBool s.cfg.irqEn ++ BitVec.ofBool s.cfg.strayPolicy ++
          BitVec.ofBool (decide (s.cfg.coding = .hex))),
        (0x0C, 0#24 ++ s.cfg.chunkSize), (0x10, 0#24 ++ s.cfg.maxRetries), (0x14, 0#16 ++ s.cfg.ackTimeout),
        (0x18, 0#8 ++ s.cfg.payloadLen),
        (0x1C, 0#24 ++ BitVec.ofBool (s.flags.getLsbD 0 && s.cfg.irqEn) ++
          BitVec.ofBool (decide (s.engine = .sSend ∨ s.engine = .sEnd ∨ s.engine = .rAck)) ++
          BitVec.ofBool (decide (s.engine = .sWait ∨ s.engine = .rListen)) ++
          BitVec.ofBool (decide (s.engine ≠ .idle)) ++ s.engine.code),
        (0x20, 0#16 ++ s.result.detail ++ s.result.code.code), (0x24, 0#22 ++ s.flags),
        (0x28, s.tx.total ++ s.tx.chunk), (0x2C, s.tx.timer ++ s.tx.last.code ++ s.tx.attempt),
        (0x30, 0#16 ++ s.tx.failId), (0x34, 0#15 ++ BitVec.ofBool s.rx.known ++ s.rx.total),
        (0x38, s.rx.expect ++ s.rx.count), (0x3C, s.rx.missingCount ++ s.rx.firstMissing),
        (0x40, 0#8 ++ s.rx.outLen), (0x44, 0#16 ++ s.scratch.opStatus.detail ++ s.scratch.opStatus.code.code),
        (0x48, 0#24 ++ s.scratch.csumOut), (0x4C, 0#16 ++ s.scratch.fChunkId), (0x50, 0#16 ++ s.scratch.fTotal),
        (0x54, 0#24 ++ s.scratch.fChecksum), (0x58, 0#16 ++ s.scratch.fLen), (0x5C, 0#16 ++ s.scratch.msgLen),
        (0x60, 0#15 ++ BitVec.ofBool s.scratch.ackOk ++ s.scratch.ackId), (0x64, 0#16 ++ s.scratch.ackExpect),
        (0x68, 0#29 ++ s.port.sel), (0x6C, 0#8 ++ s.port.addr), (0x74, 0#16 ++ s.txLen),
        (0x78, s.rx.last.id ++ s.rx.last.detail ++ s.rx.last.event.code),
        (0x80, s.cnt.txerr ++ s.cnt.txmsg), (0x84, s.cnt.timeout ++ s.cnt.retry), (0x88, s.cnt.stray ++ s.cnt.nak),
        (0x8C, s.cnt.malformed ++ s.cnt.rxok), (0x90, s.cnt.reject ++ s.cnt.csum), (0x94, s.cnt.ooo ++ s.cnt.dup)] :
        List (BitVec 8 × Word)),
      perform (.hostRead p.1) s = .next { s with reply := some p.2 }) ∧
    [EngineState.idle, .sSend, .sWait, .sEnd, .rListen, .rAck].map EngineState.code = [0, 1, 2, 3, 4, 5] ∧
    [ResultCode.none, .sendSuccess, .sendRetryExhausted, .sendSentinelTxFail, .recvAssembled, .recvIncomplete,
      .cancelled, .cfgError].map ResultCode.code = [0, 1, 2, 3, 4, 5, 6, 7] ∧
    [TxLast.none, .acked, .timeout, .nak, .unmatched, .notAnAck, .txFail].map TxLast.code = [0, 1, 2, 3, 4, 5, 6] ∧
    [RxEvent.none, .stored, .malformed, .csumMismatch, .rejected, .sentinel].map RxEvent.code = [0, 1, 2, 3, 4, 5] ∧
    [OpCode.none, .ok, .malformed, .unsafeByte, .tooLong, .badArg, .ackMatchedOk, .ackMatchedErr, .ackUnmatched,
      .notAnAck, .isSentinel, .notSentinel].map OpCode.code = [0, 1, 2, 3, 4, 5, 6, 7, 8, 9, 10, 11]

/-- R66: a write of `BUF_DATA` stores one byte and advances `BUF_ADDR`, or is refused and advances it. -/
def Obligations.BytePortWrite : Prop :=
  ∀ (s : State) (v : Word) (a : Nat), a = s.port.addr.toNat →
    (∀ b, (s.port.sel = 0 ∧ b = Buffer.payload ∧ s.engine = .idle ∧ a < s.params.payloadBytes ∨
        s.port.sel = 1 ∧ b = .msg ∧ a < s.params.maxMsg ∨ s.port.sel = 2 ∧ b = .data ∧ a < s.params.maxMsg) →
      ∃ t, perform (.hostWrite 0x70 v) s = .next t ∧ t.byteAt b a = v.setWidth 8 ∧
        (∀ b' j, (b' ≠ b ∨ j ≠ a) → t.byteAt b' j = s.byteAt b' j) ∧
        t = { s with bufs := t.bufs, port := { s.port with addr := s.port.addr + 1 } }) ∧
    ((s.port.sel = 0 ∧ (s.engine ≠ .idle ∨ a ≥ s.params.payloadBytes) ∨
        (s.port.sel = 1 ∨ s.port.sel = 2) ∧ a ≥ s.params.maxMsg ∨ 3 ≤ s.port.sel.toNat) →
      perform (.hostWrite 0x70 v) s = .next { s with
        flags := s.flags ||| 0b100#10, port := { s.port with addr := s.port.addr + 1 } })

/-- R66, R50, R52: a read of `BUF_DATA` returns one byte and advances `BUF_ADDR`; refused, it returns 0. -/
def Obligations.BytePortRead : Prop :=
  ∀ (s : State) (a : Nat) (next : PortRegs), a = s.port.addr.toNat →
    next = { s.port with addr := s.port.addr + 1 } →
    (6 ≤ s.port.sel.toNat ∨ s.port.sel = 0 ∧ a ≥ s.params.payloadBytes ∨
        (s.port.sel = 1 ∨ s.port.sel = 2 ∨ s.port.sel = 5) ∧ a ≥ s.params.maxMsg ∨
        s.port.sel = 3 ∧ a ≥ s.params.maxChunks * 255 ∨ s.port.sel = 4 ∧ a ≥ (s.params.maxChunks + 7) / 8 →
      perform (.hostRead 0x70) s = .next { s with flags := s.flags ||| 0b100#10, port := next, reply := some 0 }) ∧
    (∀ b, (s.port.sel = 0 ∧ b = Buffer.payload ∧ a < s.params.payloadBytes ∨
        s.port.sel = 1 ∧ b = .msg ∧ a < s.params.maxMsg ∨ s.port.sel = 2 ∧ b = .data ∧ a < s.params.maxMsg ∨
        s.port.sel = 5 ∧ b = .txmsg ∧ a < s.params.maxMsg ∨
        s.port.sel = 3 ∧ b = .out ∧ a < s.params.maxChunks * 255 ∧ a < s.rx.outLen.toNat) →
      perform (.hostRead 0x70) s = .next { s with port := next, reply := some ((s.byteAt b a).setWidth 32) }) ∧
    (s.port.sel = 3 → a < s.params.maxChunks * 255 → a ≥ s.rx.outLen.toNat →
      perform (.hostRead 0x70) s = .next { s with port := next, reply := some 0 }) ∧
    (s.port.sel = 4 → a < (s.params.maxChunks + 7) / 8 →
      ∃ y : Byte, perform (.hostRead 0x70) s = .next { s with port := next, reply := some (y.setWidth 32) } ∧
        ∀ k, k < 8 → y.getLsbD k = (decide (8 * a + k < s.params.maxChunks) && s.valid (8 * a + k)))

/-! ## Reset, interrupt, and rules over all steps -/

/-- R300: `Reset` in every state. The clauses that an unwritten byte reads as the draw of R301 (log 5) and that the
parameters (log 4) and the waiting events (log 1) stay are the model's choice. -/
def Obligations.ResetValues : Prop :=
  ∀ s : State, ∃ t, perform .reset s = .next t ∧ t.engine = .idle ∧ t.irq = false ∧
    (∀ r, r ≠ .bufData →
      t.readReg r = if r = .id then 0x43540100 else if r = .txFailId ∨ r = .rxMissing then 0x0000FFFF else 0) ∧
    (∀ i, t.valid i = false) ∧ (∀ b a, t.byteAt b a = Config.resetDraw t.resets b a) ∧
    t.params = s.params ∧ t.inputs = s.inputs

/-- R268, R269: FLAGS.DONE, and so the interrupt line's source, rises only in an event that ends in IDLE with a terminal
outcome in RESULT. -/
def Obligations.DoneRisesOnlyWithTerminalOutcome : Prop :=
  ∀ s t : State, step s = .next t → s.flags.getLsbD 0 = false → t.flags.getLsbD 0 = true →
    t.engine = .idle ∧ t.result.code ≠ .none

/-- R243: how STATE may change in one step. -/
def Obligations.EngineTransitions : Prop :=
  ∀ s t : State, step s = .next t →
    (s.engine, t.engine) ∈
      [(EngineState.idle, EngineState.idle), (.idle, .sSend), (.idle, .rListen),
        (.sSend, .sSend), (.sSend, .sWait), (.sSend, .idle),
        (.sWait, .sWait), (.sWait, .sSend), (.sWait, .sEnd), (.sWait, .idle),
        (.sEnd, .sEnd), (.sEnd, .idle),
        (.rListen, .rListen), (.rListen, .rAck), (.rListen, .idle),
        (.rAck, .rAck), (.rAck, .rListen), (.rAck, .idle)]

/-- R310, R65, R47: while a session runs, no event but `Reset` changes the configuration or a byte of `PAYLOAD`. -/
def Obligations.ConfigurationFrozenWhileBusy : Prop :=
  ∀ s t : State, s.engine ≠ .idle → s.inputs.head? ≠ some .reset → step s = .next t →
    t.cfg = s.cfg ∧ t.params = s.params ∧ SameBytes s t .payload

/-- R262, R263: a session ends only with a terminal outcome, FLAGS.DONE and a stopped timer, unless a `Reset` cuts it
short. -/
def Obligations.SessionEndsThroughFinish : Prop :=
  ∀ s t : State, s.engine ≠ .idle → s.inputs.head? ≠ some .reset → step s = .next t → t.engine = .idle →
    t.flags.getLsbD 0 = true ∧ t.tx.timer = 0 ∧ t.result.code ≠ .none ∧ t.result.code ≠ .cfgError

/-- R264: CMD_ERR and HOST_ERR are cleared only by a write of 1 to their bit of FLAGS, an accepted `CLEAR`, or `Reset`. -/
def Obligations.ErrorFlagsStayUntilCleared : Prop :=
  ∀ (s t : State) (k : Nat), k = 1 ∨ k = 2 → step s = .next t → s.flags.getLsbD k = true → t.flags.getLsbD k = false →
    s.inputs.head? = some .reset ∨
    (∃ v : Word, s.inputs.head? = some (.hostWrite 0x24 v) ∧ v.getLsbD k = true) ∨
    s.engine = .idle ∧ s.inputs.head? = some (commandWrite (encode .clear))

/-- R274: "In IDLE it is inert: only host accesses and `Reset` change it". -/
def Obligations.IdleChangesOnlyByHostOrReset : Prop :=
  ∀ (s t : State) (e : Event) (rest : List Event), s.engine = .idle → s.inputs = e :: rest → e ≠ .reset →
    (∀ off v, e ≠ .hostWrite off v) → (∀ off, e ≠ .hostRead off) → step s = .next t →
    t = { s with inputs := rest, reply := none }

/-- R179, R142: in a sender session TX_CHUNK changes only by 1, and only on the message `ACK|TX_CHUNK`. -/
def Obligations.SenderAdvancesOnlyOnAwaitedAck : Prop :=
  ∀ s t : State, s.inSenderSession → s.inputs.head? ≠ some .reset → step s = .next t → t.tx.chunk ≠ s.tx.chunk →
    s.engine = .sWait ∧ t.tx.chunk = s.tx.chunk + 1 ∧
      s.inputs.head? = some (.rxDeliver .ok (ackMsg s.tx.chunk true))

/-- R219 item 2: a slot changes or becomes valid only with the data of a frame whose checksum matched and that passed the
acceptance check. -/
def Obligations.SlotsHoldOnlyCheckedFrames : Prop :=
  ∀ (s t : State) (i : Nat), step s = .next t → t.valid i = true →
    (s.valid i = false ∨ t.slotData i ≠ s.slotData i) →
    s.engine = .rListen ∧ ∃ m F, s.inputs.head? = some (.rxDeliver .ok m) ∧
      CarriesFrame s.params.maxMsg m s.cfg.coding F ∧ checksum F.data = F.checksum ∧
      s.acceptCheck F = none ∧ i = F.chunkId.toNat ∧ t.slotData i = F.data

/-! ## The pure functions -/

/-- R86: `dec(n)` is the string of digits without a leading zero that spells n in base 10; `parse_dec` reads back every
`dec(n)` up to its bound and "accepts no other spelling of n". -/
def Obligations.ParseDecAcceptsExactlyDec : Prop :=
  (∀ n : Nat, dec n ≠ [] ∧ (∀ b ∈ dec n, 0x30 ≤ b.toNat ∧ b.toNat ≤ 0x39) ∧
    (1 < (dec n).length → (dec n).head? ≠ some 0x30) ∧
    (dec n).foldl (fun v b => 10 * v + (b.toNat - 0x30)) 0 = n) ∧
  ∀ (x : List Byte) (n maxv : Nat), parseDec x maxv = some n ↔ x = dec n ∧ n ≤ maxv

/-- R142, R143: the sequence-number matcher matches exactly the acknowledgement of the awaited id. -/
def Obligations.MatcherMatchesExactlyAwaitedAck : Prop :=
  ∀ (P : Nat) (m : List Byte) (e : BitVec 16) (ok : Bool), 16 ≤ P →
    (decodeAck P m e = .matched ok ↔ m = ackMsg e ok) ∧
    (decodeAck P m e = .unmatched ↔ ∃ id k, id ≠ e ∧ m = ackMsg id k) ∧
    (decodeAck P m e = .notAnAck ↔ ∀ id k, m ≠ ackMsg id k)

/-- R111 (a): a change of exactly one byte of the data is always detected. -/
def Obligations.ChecksumDetectsOneByteChange : Prop :=
  ∀ (p q : List Byte) (x y : Byte), x ≠ y → checksum (p ++ x :: q) ≠ checksum (p ++ y :: q)

/-- R115 (a): decode of encode is the frame, for every frame the encoder accepts, under both codings. -/
def Obligations.DecodeOfEncodeIsTheFrame : Prop :=
  ∀ (P : Nat) (F : Frame) (c : Coding) (m : List Byte), encodeFrame P F c = .ok m → decodeFrame P m c = .ok F

/-- R115 (b): encode of decode is the message; under HEX with its hexadecimal digits in upper case. -/
def Obligations.EncodeOfDecodeIsTheMessage : Prop :=
  ∀ (P : Nat) (m : List Byte) (F : Frame),
    (decodeFrame P m .text = .ok F → encodeFrame P F .text = .ok m) ∧
    (decodeFrame P m .hex = .ok F → encodeFrame P F .hex = .ok (m.map upperHexDigit))

/-- R116, R117: the fragments of a payload: their number, order, checksums, lengths, and that they put it together
again. -/
def Obligations.FragmentsPutThePayloadTogether : Prop :=
  ∀ (P : List Byte) (S n : Nat), 1 ≤ P.length → 1 ≤ S → n = (P.length + S - 1) / S → n ≤ 65535 →
    (fragment P S).length = n ∧ (fragment P S).flatMap (fun F => F.data) = P ∧
    ∀ k F, (fragment P S)[k]? = some F →
      F.chunkId.toNat = k ∧ F.totalChunks.toNat = n ∧ F.checksum = checksum F.data ∧
      (k < n - 1 → F.data.length = S) ∧
      (k = n - 1 → F.data.length = P.length - (n - 1) * S ∧ 1 ≤ F.data.length ∧ F.data.length ≤ S)

/-- R91, R92: the number of delimiters tells the three kinds of message apart, and their lengths. -/
def Obligations.MessageKindsAndLengths : Prop :=
  (∀ (P : Nat) (F : Frame) (c : Coding) (m : List Byte), encodeFrame P F c = .ok m →
    m.count bar = 3 ∧
    m.length = (dec F.chunkId.toNat).length + (dec F.totalChunks.toNat).length + (dec F.checksum.toNat).length + 3 +
      (if c = .text then F.data.length else 2 * F.data.length)) ∧
  (∀ (n : BitVec 16) (ok : Bool), (ackMsg n ok).count bar = 1 ∧
    (ackMsg n ok).length = 4 + (dec n.toNat).length ∧ 5 ≤ (ackMsg n ok).length ∧ (ackMsg n ok).length ≤ 9) ∧
  sentinel.count bar = 0 ∧ sentinel.length = 3

/-- R161: "A transfer that passes cannot later fail to encode a frame": the frame the engine would offer for any chunk
encodes, to the message it offers. -/
def Obligations.ValidatedTransferAlwaysEncodes : Prop :=
  ∀ (s : State) (k : BitVec 16), s.validateSend = 0 →
    s.tx.total.toNat = chunkCount s.cfg.payloadLen.toNat s.cfg.chunkSize.toNat → k.toNat < s.tx.total.toNat →
    encodeFrame s.params.maxMsg (s.sendFrame k) s.cfg.coding = .ok (frameBytes (s.sendFrame k) s.cfg.coding) ∧
    (fragment (s.memRead .payload 0 s.cfg.payloadLen.toNat) s.cfg.chunkSize.toNat)[k.toNat]? = some (s.sendFrame k)

/-! ## Invariants and whole transfers -/

/-- R213: the same valid frame delivered again, after its acknowledgement was sent, leaves the reassembly buffer and the
receiver's progress as they were. -/
def Obligations.DuplicateDeliveryIdempotent : Prop :=
  ∀ (s t u : State) (m : List Byte) (F : Frame) (st st' : Status), Inv s → s.engine = .rListen →
    CarriesFrame s.params.maxMsg m s.cfg.coding F → checksum F.data = F.checksum → s.acceptCheck F = none →
    s.performAll [.rxDeliver .ok m, .txDone st] = some t →
    t.performAll [.rxDeliver .ok m, .txDone st'] = some u →
    u.slots = t.slots ∧ u.rx.count = t.rx.count ∧ u.rx.total = t.rx.total ∧ u.rx.known = t.rx.known ∧
      u.rx.expect = t.rx.expect ∧ u.rx.last = { event := .stored, detail := 1, id := F.chunkId } ∧
      u.memRead .txmsg 0 u.txLen.toNat = ackMsg F.chunkId true

/-- R53 at reset, for every legal choice of the parameters of R12. -/
def Obligations.InvariantsHoldAtReset : Prop :=
  ∀ p : Params, p.wf = true → Inv (State.resetWith p) ∧ WithinCapacity (State.resetWith p)

/-- R53: every step keeps the invariants. -/
def Obligations.StepKeepsInvariants : Prop :=
  ∀ s t : State, Inv s → step s = .next t → Inv t

/-- R16: "Neither primitive ever goes past the buffer's capacity": no step writes a byte beyond a buffer. -/
def Obligations.StepStaysWithinCapacity : Prop :=
  ∀ s t : State, Inv s → WithinCapacity s → step s = .next t → WithinCapacity t

/-- R219 item 3: the frames of `fragment(P, S)`, in order, each delivered once or more and each time answered (`TxDone` OK
or FAIL), then the sentinel, leave P in `OUT`. -/
def Obligations.InOrderTransferReassembles : Prop :=
  ∀ (s : State) (P : List Byte) (S : Nat) (plan : List (List Status)), s.params.wf = true → s.engine = .rListen →
    s.slots = [] → s.rx.known = false → s.rx.count = 0 →
    1 ≤ P.length → P.length < 2 ^ 24 → 1 ≤ S → S ≤ s.cfg.chunkSize.toNat →
    (P.length + S - 1) / S ≤ s.params.maxChunks →
    (∀ F ∈ fragment P S, ∃ m, encodeFrame s.params.maxMsg F s.cfg.coding = .ok m) →
    plan.length = (fragment P S).length → (∀ sts ∈ plan, sts ≠ []) →
    ∃ t, s.performAll (deliverTransfer s.cfg.coding ((fragment P S).zip plan)) = some t ∧
      t.engine = .idle ∧ t.result = { code := .recvAssembled, detail := 0 } ∧
      t.rx.outLen.toNat = P.length ∧ t.memRead .out 0 P.length = P

/-- R275: two blocks over a link that may lose, duplicate and delay but not corrupt. When the sender ends in SEND_SUCCESS
and the receiver has taken the sentinel, the receiver holds the sender's payload. The link is the model's (log 15). -/
def Obligations.TwoBlockTransferDelivers : Prop :=
  ∀ (a b a' b' : State) (moves : List LinkMove) (y : System),
    Inv a → Inv b → a.engine = .idle → b.engine = .idle →
    a.validateSend = 0 → b.cfg.chunkSize ≠ 0 → exec .startSend a = .next a' → exec .startRecv b = .next b' →
    a.cfg.coding = b.cfg.coding → a.cfg.chunkSize.toNat ≤ b.cfg.chunkSize.toNat →
    chunkCount a.cfg.payloadLen.toNat a.cfg.chunkSize.toNat ≤ b.params.maxChunks →
    (∀ m ∈ moves, m.faithful = true) →
    ({ a := a', b := b', toA := [], toB := [] } : System).run moves = some y →
    y.a.result.code = .sendSuccess → y.b.engine = .idle →
    y.b.result = { code := .recvAssembled, detail := 0 } ∧
      y.b.rx.outLen.toNat = a.cfg.payloadLen.toNat ∧
      y.b.memRead .out 0 a.cfg.payloadLen.toNat = a.memRead .payload 0 a.cfg.payloadLen.toNat
end

