-- ==== Sys2Proof/Laws/State.lean ====
section
/-! SUPPORT. One lemma per field per named update of the state, true by rfl: a later proof reads a field of an updated
state without unfolding the update. -/

namespace Sys2Proof.Machine

variable (s : State)

/-! ### setFlag -/

@[simp] theorem State.setFlag_params (f : Flag) : (s.setFlag f).params = s.params := rfl
@[simp] theorem State.setFlag_cfg (f : Flag) : (s.setFlag f).cfg = s.cfg := rfl
@[simp] theorem State.setFlag_engine (f : Flag) : (s.setFlag f).engine = s.engine := rfl
@[simp] theorem State.setFlag_result (f : Flag) : (s.setFlag f).result = s.result := rfl
@[simp] theorem State.setFlag_flags (f : Flag) : (s.setFlag f).flags = s.flags ||| f.mask := rfl
@[simp] theorem State.setFlag_tx (f : Flag) : (s.setFlag f).tx = s.tx := rfl
@[simp] theorem State.setFlag_rx (f : Flag) : (s.setFlag f).rx = s.rx := rfl
@[simp] theorem State.setFlag_scratch (f : Flag) : (s.setFlag f).scratch = s.scratch := rfl
@[simp] theorem State.setFlag_port (f : Flag) : (s.setFlag f).port = s.port := rfl
@[simp] theorem State.setFlag_txLen (f : Flag) : (s.setFlag f).txLen = s.txLen := rfl
@[simp] theorem State.setFlag_cnt (f : Flag) : (s.setFlag f).cnt = s.cnt := rfl
@[simp] theorem State.setFlag_bufs (f : Flag) : (s.setFlag f).bufs = s.bufs := rfl
@[simp] theorem State.setFlag_slots (f : Flag) : (s.setFlag f).slots = s.slots := rfl
@[simp] theorem State.setFlag_inputs (f : Flag) : (s.setFlag f).inputs = s.inputs := rfl
@[simp] theorem State.setFlag_reply (f : Flag) : (s.setFlag f).reply = s.reply := rfl
@[simp] theorem State.setFlag_resets (f : Flag) : (s.setFlag f).resets = s.resets := rfl

/-! ### clearSessionFlags -/

@[simp] theorem State.clearSessionFlags_params : s.clearSessionFlags.params = s.params := rfl
@[simp] theorem State.clearSessionFlags_cfg : s.clearSessionFlags.cfg = s.cfg := rfl
@[simp] theorem State.clearSessionFlags_engine : s.clearSessionFlags.engine = s.engine := rfl
@[simp] theorem State.clearSessionFlags_result : s.clearSessionFlags.result = s.result := rfl
@[simp] theorem State.clearSessionFlags_flags : s.clearSessionFlags.flags = s.flags &&& 0b0000000110#10 := rfl
@[simp] theorem State.clearSessionFlags_tx : s.clearSessionFlags.tx = s.tx := rfl
@[simp] theorem State.clearSessionFlags_rx : s.clearSessionFlags.rx = s.rx := rfl
@[simp] theorem State.clearSessionFlags_scratch : s.clearSessionFlags.scratch = s.scratch := rfl
@[simp] theorem State.clearSessionFlags_port : s.clearSessionFlags.port = s.port := rfl
@[simp] theorem State.clearSessionFlags_txLen : s.clearSessionFlags.txLen = s.txLen := rfl
@[simp] theorem State.clearSessionFlags_cnt : s.clearSessionFlags.cnt = s.cnt := rfl
@[simp] theorem State.clearSessionFlags_bufs : s.clearSessionFlags.bufs = s.bufs := rfl
@[simp] theorem State.clearSessionFlags_slots : s.clearSessionFlags.slots = s.slots := rfl
@[simp] theorem State.clearSessionFlags_inputs : s.clearSessionFlags.inputs = s.inputs := rfl
@[simp] theorem State.clearSessionFlags_reply : s.clearSessionFlags.reply = s.reply := rfl
@[simp] theorem State.clearSessionFlags_resets : s.clearSessionFlags.resets = s.resets := rfl

/-! ### clearFlagsWritten -/

@[simp] theorem State.clearFlagsWritten_params (v : Word) : (s.clearFlagsWritten v).params = s.params := rfl
@[simp] theorem State.clearFlagsWritten_cfg (v : Word) : (s.clearFlagsWritten v).cfg = s.cfg := rfl
@[simp] theorem State.clearFlagsWritten_engine (v : Word) : (s.clearFlagsWritten v).engine = s.engine := rfl
@[simp] theorem State.clearFlagsWritten_result (v : Word) : (s.clearFlagsWritten v).result = s.result := rfl
@[simp] theorem State.clearFlagsWritten_flags (v : Word) : (s.clearFlagsWritten v).flags = s.flags &&& ~~~(v.extractLsb' 0 10) := rfl
@[simp] theorem State.clearFlagsWritten_tx (v : Word) : (s.clearFlagsWritten v).tx = s.tx := rfl
@[simp] theorem State.clearFlagsWritten_rx (v : Word) : (s.clearFlagsWritten v).rx = s.rx := rfl
@[simp] theorem State.clearFlagsWritten_scratch (v : Word) : (s.clearFlagsWritten v).scratch = s.scratch := rfl
@[simp] theorem State.clearFlagsWritten_port (v : Word) : (s.clearFlagsWritten v).port = s.port := rfl
@[simp] theorem State.clearFlagsWritten_txLen (v : Word) : (s.clearFlagsWritten v).txLen = s.txLen := rfl
@[simp] theorem State.clearFlagsWritten_cnt (v : Word) : (s.clearFlagsWritten v).cnt = s.cnt := rfl
@[simp] theorem State.clearFlagsWritten_bufs (v : Word) : (s.clearFlagsWritten v).bufs = s.bufs := rfl
@[simp] theorem State.clearFlagsWritten_slots (v : Word) : (s.clearFlagsWritten v).slots = s.slots := rfl
@[simp] theorem State.clearFlagsWritten_inputs (v : Word) : (s.clearFlagsWritten v).inputs = s.inputs := rfl
@[simp] theorem State.clearFlagsWritten_reply (v : Word) : (s.clearFlagsWritten v).reply = s.reply := rfl
@[simp] theorem State.clearFlagsWritten_resets (v : Word) : (s.clearFlagsWritten v).resets = s.resets := rfl

/-! ### cntInc -/

@[simp] theorem State.cntInc_params (c : Counter) : (s.cntInc c).params = s.params := rfl
@[simp] theorem State.cntInc_cfg (c : Counter) : (s.cntInc c).cfg = s.cfg := rfl
@[simp] theorem State.cntInc_engine (c : Counter) : (s.cntInc c).engine = s.engine := rfl
@[simp] theorem State.cntInc_result (c : Counter) : (s.cntInc c).result = s.result := rfl
@[simp] theorem State.cntInc_flags (c : Counter) : (s.cntInc c).flags = s.flags := rfl
@[simp] theorem State.cntInc_tx (c : Counter) : (s.cntInc c).tx = s.tx := rfl
@[simp] theorem State.cntInc_rx (c : Counter) : (s.cntInc c).rx = s.rx := rfl
@[simp] theorem State.cntInc_scratch (c : Counter) : (s.cntInc c).scratch = s.scratch := rfl
@[simp] theorem State.cntInc_port (c : Counter) : (s.cntInc c).port = s.port := rfl
@[simp] theorem State.cntInc_txLen (c : Counter) : (s.cntInc c).txLen = s.txLen := rfl
@[simp] theorem State.cntInc_cnt (c : Counter) : (s.cntInc c).cnt = s.cnt.inc c := rfl
@[simp] theorem State.cntInc_bufs (c : Counter) : (s.cntInc c).bufs = s.bufs := rfl
@[simp] theorem State.cntInc_slots (c : Counter) : (s.cntInc c).slots = s.slots := rfl
@[simp] theorem State.cntInc_inputs (c : Counter) : (s.cntInc c).inputs = s.inputs := rfl
@[simp] theorem State.cntInc_reply (c : Counter) : (s.cntInc c).reply = s.reply := rfl
@[simp] theorem State.cntInc_resets (c : Counter) : (s.cntInc c).resets = s.resets := rfl

/-! ### memWrite -/

@[simp] theorem State.memWrite_params (b : Buffer) (a : Nat) (x : List Byte) : (s.memWrite b a x).params = s.params := rfl
@[simp] theorem State.memWrite_cfg (b : Buffer) (a : Nat) (x : List Byte) : (s.memWrite b a x).cfg = s.cfg := rfl
@[simp] theorem State.memWrite_engine (b : Buffer) (a : Nat) (x : List Byte) : (s.memWrite b a x).engine = s.engine := rfl
@[simp] theorem State.memWrite_result (b : Buffer) (a : Nat) (x : List Byte) : (s.memWrite b a x).result = s.result := rfl
@[simp] theorem State.memWrite_flags (b : Buffer) (a : Nat) (x : List Byte) : (s.memWrite b a x).flags = s.flags := rfl
@[simp] theorem State.memWrite_tx (b : Buffer) (a : Nat) (x : List Byte) : (s.memWrite b a x).tx = s.tx := rfl
@[simp] theorem State.memWrite_rx (b : Buffer) (a : Nat) (x : List Byte) : (s.memWrite b a x).rx = s.rx := rfl
@[simp] theorem State.memWrite_scratch (b : Buffer) (a : Nat) (x : List Byte) : (s.memWrite b a x).scratch = s.scratch := rfl
@[simp] theorem State.memWrite_port (b : Buffer) (a : Nat) (x : List Byte) : (s.memWrite b a x).port = s.port := rfl
@[simp] theorem State.memWrite_txLen (b : Buffer) (a : Nat) (x : List Byte) : (s.memWrite b a x).txLen = s.txLen := rfl
@[simp] theorem State.memWrite_cnt (b : Buffer) (a : Nat) (x : List Byte) : (s.memWrite b a x).cnt = s.cnt := rfl
@[simp] theorem State.memWrite_bufs (b : Buffer) (a : Nat) (x : List Byte) : (s.memWrite b a x).bufs = s.bufs.put b (Memory.writeAll a x (s.bufs.get b)) := rfl
@[simp] theorem State.memWrite_slots (b : Buffer) (a : Nat) (x : List Byte) : (s.memWrite b a x).slots = s.slots := rfl
@[simp] theorem State.memWrite_inputs (b : Buffer) (a : Nat) (x : List Byte) : (s.memWrite b a x).inputs = s.inputs := rfl
@[simp] theorem State.memWrite_reply (b : Buffer) (a : Nat) (x : List Byte) : (s.memWrite b a x).reply = s.reply := rfl
@[simp] theorem State.memWrite_resets (b : Buffer) (a : Nat) (x : List Byte) : (s.memWrite b a x).resets = s.resets := rfl

/-! ### setResult -/

@[simp] theorem State.setResult_params (c : ResultCode) (d : BitVec 8) : (s.setResult c d).params = s.params := rfl
@[simp] theorem State.setResult_cfg (c : ResultCode) (d : BitVec 8) : (s.setResult c d).cfg = s.cfg := rfl
@[simp] theorem State.setResult_engine (c : ResultCode) (d : BitVec 8) : (s.setResult c d).engine = s.engine := rfl
@[simp] theorem State.setResult_result (c : ResultCode) (d : BitVec 8) : (s.setResult c d).result = { code := c, detail := d } := rfl
@[simp] theorem State.setResult_flags (c : ResultCode) (d : BitVec 8) : (s.setResult c d).flags = s.flags := rfl
@[simp] theorem State.setResult_tx (c : ResultCode) (d : BitVec 8) : (s.setResult c d).tx = s.tx := rfl
@[simp] theorem State.setResult_rx (c : ResultCode) (d : BitVec 8) : (s.setResult c d).rx = s.rx := rfl
@[simp] theorem State.setResult_scratch (c : ResultCode) (d : BitVec 8) : (s.setResult c d).scratch = s.scratch := rfl
@[simp] theorem State.setResult_port (c : ResultCode) (d : BitVec 8) : (s.setResult c d).port = s.port := rfl
@[simp] theorem State.setResult_txLen (c : ResultCode) (d : BitVec 8) : (s.setResult c d).txLen = s.txLen := rfl
@[simp] theorem State.setResult_cnt (c : ResultCode) (d : BitVec 8) : (s.setResult c d).cnt = s.cnt := rfl
@[simp] theorem State.setResult_bufs (c : ResultCode) (d : BitVec 8) : (s.setResult c d).bufs = s.bufs := rfl
@[simp] theorem State.setResult_slots (c : ResultCode) (d : BitVec 8) : (s.setResult c d).slots = s.slots := rfl
@[simp] theorem State.setResult_inputs (c : ResultCode) (d : BitVec 8) : (s.setResult c d).inputs = s.inputs := rfl
@[simp] theorem State.setResult_reply (c : ResultCode) (d : BitVec 8) : (s.setResult c d).reply = s.reply := rfl
@[simp] theorem State.setResult_resets (c : ResultCode) (d : BitVec 8) : (s.setResult c d).resets = s.resets := rfl

/-! ### setOpStatus -/

@[simp] theorem State.setOpStatus_params (c : OpCode) (d : BitVec 8) : (s.setOpStatus c d).params = s.params := rfl
@[simp] theorem State.setOpStatus_cfg (c : OpCode) (d : BitVec 8) : (s.setOpStatus c d).cfg = s.cfg := rfl
@[simp] theorem State.setOpStatus_engine (c : OpCode) (d : BitVec 8) : (s.setOpStatus c d).engine = s.engine := rfl
@[simp] theorem State.setOpStatus_result (c : OpCode) (d : BitVec 8) : (s.setOpStatus c d).result = s.result := rfl
@[simp] theorem State.setOpStatus_flags (c : OpCode) (d : BitVec 8) : (s.setOpStatus c d).flags = s.flags := rfl
@[simp] theorem State.setOpStatus_tx (c : OpCode) (d : BitVec 8) : (s.setOpStatus c d).tx = s.tx := rfl
@[simp] theorem State.setOpStatus_rx (c : OpCode) (d : BitVec 8) : (s.setOpStatus c d).rx = s.rx := rfl
@[simp] theorem State.setOpStatus_scratch (c : OpCode) (d : BitVec 8) : (s.setOpStatus c d).scratch = { s.scratch with opStatus := { code := c, detail := d } } := rfl
@[simp] theorem State.setOpStatus_port (c : OpCode) (d : BitVec 8) : (s.setOpStatus c d).port = s.port := rfl
@[simp] theorem State.setOpStatus_txLen (c : OpCode) (d : BitVec 8) : (s.setOpStatus c d).txLen = s.txLen := rfl
@[simp] theorem State.setOpStatus_cnt (c : OpCode) (d : BitVec 8) : (s.setOpStatus c d).cnt = s.cnt := rfl
@[simp] theorem State.setOpStatus_bufs (c : OpCode) (d : BitVec 8) : (s.setOpStatus c d).bufs = s.bufs := rfl
@[simp] theorem State.setOpStatus_slots (c : OpCode) (d : BitVec 8) : (s.setOpStatus c d).slots = s.slots := rfl
@[simp] theorem State.setOpStatus_inputs (c : OpCode) (d : BitVec 8) : (s.setOpStatus c d).inputs = s.inputs := rfl
@[simp] theorem State.setOpStatus_reply (c : OpCode) (d : BitVec 8) : (s.setOpStatus c d).reply = s.reply := rfl
@[simp] theorem State.setOpStatus_resets (c : OpCode) (d : BitVec 8) : (s.setOpStatus c d).resets = s.resets := rfl

/-! ### setRxLast -/

@[simp] theorem State.setRxLast_params (e : RxEvent) (d : BitVec 8) (i : BitVec 16) : (s.setRxLast e d i).params = s.params := rfl
@[simp] theorem State.setRxLast_cfg (e : RxEvent) (d : BitVec 8) (i : BitVec 16) : (s.setRxLast e d i).cfg = s.cfg := rfl
@[simp] theorem State.setRxLast_engine (e : RxEvent) (d : BitVec 8) (i : BitVec 16) : (s.setRxLast e d i).engine = s.engine := rfl
@[simp] theorem State.setRxLast_result (e : RxEvent) (d : BitVec 8) (i : BitVec 16) : (s.setRxLast e d i).result = s.result := rfl
@[simp] theorem State.setRxLast_flags (e : RxEvent) (d : BitVec 8) (i : BitVec 16) : (s.setRxLast e d i).flags = s.flags := rfl
@[simp] theorem State.setRxLast_tx (e : RxEvent) (d : BitVec 8) (i : BitVec 16) : (s.setRxLast e d i).tx = s.tx := rfl
@[simp] theorem State.setRxLast_rx (e : RxEvent) (d : BitVec 8) (i : BitVec 16) : (s.setRxLast e d i).rx = { s.rx with last := { event := e, detail := d, id := i } } := rfl
@[simp] theorem State.setRxLast_scratch (e : RxEvent) (d : BitVec 8) (i : BitVec 16) : (s.setRxLast e d i).scratch = s.scratch := rfl
@[simp] theorem State.setRxLast_port (e : RxEvent) (d : BitVec 8) (i : BitVec 16) : (s.setRxLast e d i).port = s.port := rfl
@[simp] theorem State.setRxLast_txLen (e : RxEvent) (d : BitVec 8) (i : BitVec 16) : (s.setRxLast e d i).txLen = s.txLen := rfl
@[simp] theorem State.setRxLast_cnt (e : RxEvent) (d : BitVec 8) (i : BitVec 16) : (s.setRxLast e d i).cnt = s.cnt := rfl
@[simp] theorem State.setRxLast_bufs (e : RxEvent) (d : BitVec 8) (i : BitVec 16) : (s.setRxLast e d i).bufs = s.bufs := rfl
@[simp] theorem State.setRxLast_slots (e : RxEvent) (d : BitVec 8) (i : BitVec 16) : (s.setRxLast e d i).slots = s.slots := rfl
@[simp] theorem State.setRxLast_inputs (e : RxEvent) (d : BitVec 8) (i : BitVec 16) : (s.setRxLast e d i).inputs = s.inputs := rfl
@[simp] theorem State.setRxLast_reply (e : RxEvent) (d : BitVec 8) (i : BitVec 16) : (s.setRxLast e d i).reply = s.reply := rfl
@[simp] theorem State.setRxLast_resets (e : RxEvent) (d : BitVec 8) (i : BitVec 16) : (s.setRxLast e d i).resets = s.resets := rfl

/-! ### setTxLast -/

@[simp] theorem State.setTxLast_params (r : TxLast) : (s.setTxLast r).params = s.params := rfl
@[simp] theorem State.setTxLast_cfg (r : TxLast) : (s.setTxLast r).cfg = s.cfg := rfl
@[simp] theorem State.setTxLast_engine (r : TxLast) : (s.setTxLast r).engine = s.engine := rfl
@[simp] theorem State.setTxLast_result (r : TxLast) : (s.setTxLast r).result = s.result := rfl
@[simp] theorem State.setTxLast_flags (r : TxLast) : (s.setTxLast r).flags = s.flags := rfl
@[simp] theorem State.setTxLast_tx (r : TxLast) : (s.setTxLast r).tx = { s.tx with last := r } := rfl
@[simp] theorem State.setTxLast_rx (r : TxLast) : (s.setTxLast r).rx = s.rx := rfl
@[simp] theorem State.setTxLast_scratch (r : TxLast) : (s.setTxLast r).scratch = s.scratch := rfl
@[simp] theorem State.setTxLast_port (r : TxLast) : (s.setTxLast r).port = s.port := rfl
@[simp] theorem State.setTxLast_txLen (r : TxLast) : (s.setTxLast r).txLen = s.txLen := rfl
@[simp] theorem State.setTxLast_cnt (r : TxLast) : (s.setTxLast r).cnt = s.cnt := rfl
@[simp] theorem State.setTxLast_bufs (r : TxLast) : (s.setTxLast r).bufs = s.bufs := rfl
@[simp] theorem State.setTxLast_slots (r : TxLast) : (s.setTxLast r).slots = s.slots := rfl
@[simp] theorem State.setTxLast_inputs (r : TxLast) : (s.setTxLast r).inputs = s.inputs := rfl
@[simp] theorem State.setTxLast_reply (r : TxLast) : (s.setTxLast r).reply = s.reply := rfl
@[simp] theorem State.setTxLast_resets (r : TxLast) : (s.setTxLast r).resets = s.resets := rfl

/-! ### setTxTimer -/

@[simp] theorem State.setTxTimer_params (v : BitVec 16) : (s.setTxTimer v).params = s.params := rfl
@[simp] theorem State.setTxTimer_cfg (v : BitVec 16) : (s.setTxTimer v).cfg = s.cfg := rfl
@[simp] theorem State.setTxTimer_engine (v : BitVec 16) : (s.setTxTimer v).engine = s.engine := rfl
@[simp] theorem State.setTxTimer_result (v : BitVec 16) : (s.setTxTimer v).result = s.result := rfl
@[simp] theorem State.setTxTimer_flags (v : BitVec 16) : (s.setTxTimer v).flags = s.flags := rfl
@[simp] theorem State.setTxTimer_tx (v : BitVec 16) : (s.setTxTimer v).tx = { s.tx with timer := v } := rfl
@[simp] theorem State.setTxTimer_rx (v : BitVec 16) : (s.setTxTimer v).rx = s.rx := rfl
@[simp] theorem State.setTxTimer_scratch (v : BitVec 16) : (s.setTxTimer v).scratch = s.scratch := rfl
@[simp] theorem State.setTxTimer_port (v : BitVec 16) : (s.setTxTimer v).port = s.port := rfl
@[simp] theorem State.setTxTimer_txLen (v : BitVec 16) : (s.setTxTimer v).txLen = s.txLen := rfl
@[simp] theorem State.setTxTimer_cnt (v : BitVec 16) : (s.setTxTimer v).cnt = s.cnt := rfl
@[simp] theorem State.setTxTimer_bufs (v : BitVec 16) : (s.setTxTimer v).bufs = s.bufs := rfl
@[simp] theorem State.setTxTimer_slots (v : BitVec 16) : (s.setTxTimer v).slots = s.slots := rfl
@[simp] theorem State.setTxTimer_inputs (v : BitVec 16) : (s.setTxTimer v).inputs = s.inputs := rfl
@[simp] theorem State.setTxTimer_reply (v : BitVec 16) : (s.setTxTimer v).reply = s.reply := rfl
@[simp] theorem State.setTxTimer_resets (v : BitVec 16) : (s.setTxTimer v).resets = s.resets := rfl

/-! ### goto -/

@[simp] theorem State.goto_params (e : EngineState) : (s.goto e).params = s.params := rfl
@[simp] theorem State.goto_cfg (e : EngineState) : (s.goto e).cfg = s.cfg := rfl
@[simp] theorem State.goto_engine (e : EngineState) : (s.goto e).engine = e := rfl
@[simp] theorem State.goto_result (e : EngineState) : (s.goto e).result = s.result := rfl
@[simp] theorem State.goto_flags (e : EngineState) : (s.goto e).flags = s.flags := rfl
@[simp] theorem State.goto_tx (e : EngineState) : (s.goto e).tx = s.tx := rfl
@[simp] theorem State.goto_rx (e : EngineState) : (s.goto e).rx = s.rx := rfl
@[simp] theorem State.goto_scratch (e : EngineState) : (s.goto e).scratch = s.scratch := rfl
@[simp] theorem State.goto_port (e : EngineState) : (s.goto e).port = s.port := rfl
@[simp] theorem State.goto_txLen (e : EngineState) : (s.goto e).txLen = s.txLen := rfl
@[simp] theorem State.goto_cnt (e : EngineState) : (s.goto e).cnt = s.cnt := rfl
@[simp] theorem State.goto_bufs (e : EngineState) : (s.goto e).bufs = s.bufs := rfl
@[simp] theorem State.goto_slots (e : EngineState) : (s.goto e).slots = s.slots := rfl
@[simp] theorem State.goto_inputs (e : EngineState) : (s.goto e).inputs = s.inputs := rfl
@[simp] theorem State.goto_reply (e : EngineState) : (s.goto e).reply = s.reply := rfl
@[simp] theorem State.goto_resets (e : EngineState) : (s.goto e).resets = s.resets := rfl

/-! ### clearCounters -/

@[simp] theorem State.clearCounters_params : s.clearCounters.params = s.params := rfl
@[simp] theorem State.clearCounters_cfg : s.clearCounters.cfg = s.cfg := rfl
@[simp] theorem State.clearCounters_engine : s.clearCounters.engine = s.engine := rfl
@[simp] theorem State.clearCounters_result : s.clearCounters.result = s.result := rfl
@[simp] theorem State.clearCounters_flags : s.clearCounters.flags = s.flags := rfl
@[simp] theorem State.clearCounters_tx : s.clearCounters.tx = s.tx := rfl
@[simp] theorem State.clearCounters_rx : s.clearCounters.rx = s.rx := rfl
@[simp] theorem State.clearCounters_scratch : s.clearCounters.scratch = s.scratch := rfl
@[simp] theorem State.clearCounters_port : s.clearCounters.port = s.port := rfl
@[simp] theorem State.clearCounters_txLen : s.clearCounters.txLen = s.txLen := rfl
@[simp] theorem State.clearCounters_cnt : s.clearCounters.cnt = Counters.zero := rfl
@[simp] theorem State.clearCounters_bufs : s.clearCounters.bufs = s.bufs := rfl
@[simp] theorem State.clearCounters_slots : s.clearCounters.slots = s.slots := rfl
@[simp] theorem State.clearCounters_inputs : s.clearCounters.inputs = s.inputs := rfl
@[simp] theorem State.clearCounters_reply : s.clearCounters.reply = s.reply := rfl
@[simp] theorem State.clearCounters_resets : s.clearCounters.resets = s.resets := rfl

/-! ### offer -/

@[simp] theorem State.offer_params (m : List Byte) : (s.offer m).params = s.params := rfl
@[simp] theorem State.offer_cfg (m : List Byte) : (s.offer m).cfg = s.cfg := rfl
@[simp] theorem State.offer_engine (m : List Byte) : (s.offer m).engine = s.engine := rfl
@[simp] theorem State.offer_result (m : List Byte) : (s.offer m).result = s.result := rfl
@[simp] theorem State.offer_flags (m : List Byte) : (s.offer m).flags = s.flags := rfl
@[simp] theorem State.offer_tx (m : List Byte) : (s.offer m).tx = s.tx := rfl
@[simp] theorem State.offer_rx (m : List Byte) : (s.offer m).rx = s.rx := rfl
@[simp] theorem State.offer_scratch (m : List Byte) : (s.offer m).scratch = s.scratch := rfl
@[simp] theorem State.offer_port (m : List Byte) : (s.offer m).port = s.port := rfl
@[simp] theorem State.offer_txLen (m : List Byte) : (s.offer m).txLen = BitVec.ofNat 16 m.length := rfl
@[simp] theorem State.offer_cnt (m : List Byte) : (s.offer m).cnt = s.cnt := rfl
@[simp] theorem State.offer_bufs (m : List Byte) : (s.offer m).bufs = s.bufs.put .txmsg (Memory.writeAll 0 m (s.bufs.get .txmsg)) := rfl
@[simp] theorem State.offer_slots (m : List Byte) : (s.offer m).slots = s.slots := rfl
@[simp] theorem State.offer_inputs (m : List Byte) : (s.offer m).inputs = s.inputs := rfl
@[simp] theorem State.offer_reply (m : List Byte) : (s.offer m).reply = s.reply := rfl
@[simp] theorem State.offer_resets (m : List Byte) : (s.offer m).resets = s.resets := rfl

/-! ### finish -/

@[simp] theorem State.finish_params (c : ResultCode) (d : BitVec 8) : (s.finish c d).params = s.params := rfl
@[simp] theorem State.finish_cfg (c : ResultCode) (d : BitVec 8) : (s.finish c d).cfg = s.cfg := rfl
@[simp] theorem State.finish_engine (c : ResultCode) (d : BitVec 8) : (s.finish c d).engine = .idle := rfl
@[simp] theorem State.finish_result (c : ResultCode) (d : BitVec 8) : (s.finish c d).result = { code := c, detail := d } := rfl
@[simp] theorem State.finish_flags (c : ResultCode) (d : BitVec 8) : (s.finish c d).flags = s.flags ||| Flag.done.mask := rfl
@[simp] theorem State.finish_tx (c : ResultCode) (d : BitVec 8) : (s.finish c d).tx = { s.tx with timer := 0 } := rfl
@[simp] theorem State.finish_rx (c : ResultCode) (d : BitVec 8) : (s.finish c d).rx = s.rx := rfl
@[simp] theorem State.finish_scratch (c : ResultCode) (d : BitVec 8) : (s.finish c d).scratch = s.scratch := rfl
@[simp] theorem State.finish_port (c : ResultCode) (d : BitVec 8) : (s.finish c d).port = s.port := rfl
@[simp] theorem State.finish_txLen (c : ResultCode) (d : BitVec 8) : (s.finish c d).txLen = s.txLen := rfl
@[simp] theorem State.finish_cnt (c : ResultCode) (d : BitVec 8) : (s.finish c d).cnt = s.cnt := rfl
@[simp] theorem State.finish_bufs (c : ResultCode) (d : BitVec 8) : (s.finish c d).bufs = s.bufs := rfl
@[simp] theorem State.finish_slots (c : ResultCode) (d : BitVec 8) : (s.finish c d).slots = s.slots := rfl
@[simp] theorem State.finish_inputs (c : ResultCode) (d : BitVec 8) : (s.finish c d).inputs = s.inputs := rfl
@[simp] theorem State.finish_reply (c : ResultCode) (d : BitVec 8) : (s.finish c d).reply = s.reply := rfl
@[simp] theorem State.finish_resets (c : ResultCode) (d : BitVec 8) : (s.finish c d).resets = s.resets := rfl

/-! ### refuseCommand -/

@[simp] theorem State.refuseCommand_params : s.refuseCommand.params = s.params := rfl
@[simp] theorem State.refuseCommand_cfg : s.refuseCommand.cfg = s.cfg := rfl
@[simp] theorem State.refuseCommand_engine : s.refuseCommand.engine = s.engine := rfl
@[simp] theorem State.refuseCommand_result : s.refuseCommand.result = s.result := rfl
@[simp] theorem State.refuseCommand_flags : s.refuseCommand.flags = s.flags ||| Flag.cmdErr.mask := rfl
@[simp] theorem State.refuseCommand_tx : s.refuseCommand.tx = s.tx := rfl
@[simp] theorem State.refuseCommand_rx : s.refuseCommand.rx = s.rx := rfl
@[simp] theorem State.refuseCommand_scratch : s.refuseCommand.scratch = s.scratch := rfl
@[simp] theorem State.refuseCommand_port : s.refuseCommand.port = s.port := rfl
@[simp] theorem State.refuseCommand_txLen : s.refuseCommand.txLen = s.txLen := rfl
@[simp] theorem State.refuseCommand_cnt : s.refuseCommand.cnt = s.cnt := rfl
@[simp] theorem State.refuseCommand_bufs : s.refuseCommand.bufs = s.bufs := rfl
@[simp] theorem State.refuseCommand_slots : s.refuseCommand.slots = s.slots := rfl
@[simp] theorem State.refuseCommand_inputs : s.refuseCommand.inputs = s.inputs := rfl
@[simp] theorem State.refuseCommand_reply : s.refuseCommand.reply = s.reply := rfl
@[simp] theorem State.refuseCommand_resets : s.refuseCommand.resets = s.resets := rfl

/-! ### hostError -/

@[simp] theorem State.hostError_params : s.hostError.params = s.params := rfl
@[simp] theorem State.hostError_cfg : s.hostError.cfg = s.cfg := rfl
@[simp] theorem State.hostError_engine : s.hostError.engine = s.engine := rfl
@[simp] theorem State.hostError_result : s.hostError.result = s.result := rfl
@[simp] theorem State.hostError_flags : s.hostError.flags = s.flags ||| Flag.hostErr.mask := rfl
@[simp] theorem State.hostError_tx : s.hostError.tx = s.tx := rfl
@[simp] theorem State.hostError_rx : s.hostError.rx = s.rx := rfl
@[simp] theorem State.hostError_scratch : s.hostError.scratch = s.scratch := rfl
@[simp] theorem State.hostError_port : s.hostError.port = s.port := rfl
@[simp] theorem State.hostError_txLen : s.hostError.txLen = s.txLen := rfl
@[simp] theorem State.hostError_cnt : s.hostError.cnt = s.cnt := rfl
@[simp] theorem State.hostError_bufs : s.hostError.bufs = s.bufs := rfl
@[simp] theorem State.hostError_slots : s.hostError.slots = s.slots := rfl
@[simp] theorem State.hostError_inputs : s.hostError.inputs = s.inputs := rfl
@[simp] theorem State.hostError_reply : s.hostError.reply = s.reply := rfl
@[simp] theorem State.hostError_resets : s.hostError.resets = s.resets := rfl

/-! ### portAdvance -/

@[simp] theorem State.portAdvance_params : s.portAdvance.params = s.params := rfl
@[simp] theorem State.portAdvance_cfg : s.portAdvance.cfg = s.cfg := rfl
@[simp] theorem State.portAdvance_engine : s.portAdvance.engine = s.engine := rfl
@[simp] theorem State.portAdvance_result : s.portAdvance.result = s.result := rfl
@[simp] theorem State.portAdvance_flags : s.portAdvance.flags = s.flags := rfl
@[simp] theorem State.portAdvance_tx : s.portAdvance.tx = s.tx := rfl
@[simp] theorem State.portAdvance_rx : s.portAdvance.rx = s.rx := rfl
@[simp] theorem State.portAdvance_scratch : s.portAdvance.scratch = s.scratch := rfl
@[simp] theorem State.portAdvance_port : s.portAdvance.port = { s.port with addr := s.port.addr + 1 } := rfl
@[simp] theorem State.portAdvance_txLen : s.portAdvance.txLen = s.txLen := rfl
@[simp] theorem State.portAdvance_cnt : s.portAdvance.cnt = s.cnt := rfl
@[simp] theorem State.portAdvance_bufs : s.portAdvance.bufs = s.bufs := rfl
@[simp] theorem State.portAdvance_slots : s.portAdvance.slots = s.slots := rfl
@[simp] theorem State.portAdvance_inputs : s.portAdvance.inputs = s.inputs := rfl
@[simp] theorem State.portAdvance_reply : s.portAdvance.reply = s.reply := rfl
@[simp] theorem State.portAdvance_resets : s.portAdvance.resets = s.resets := rfl

/-! ### replyWith -/

@[simp] theorem State.replyWith_params (v : Word) : (s.replyWith v).params = s.params := rfl
@[simp] theorem State.replyWith_cfg (v : Word) : (s.replyWith v).cfg = s.cfg := rfl
@[simp] theorem State.replyWith_engine (v : Word) : (s.replyWith v).engine = s.engine := rfl
@[simp] theorem State.replyWith_result (v : Word) : (s.replyWith v).result = s.result := rfl
@[simp] theorem State.replyWith_flags (v : Word) : (s.replyWith v).flags = s.flags := rfl
@[simp] theorem State.replyWith_tx (v : Word) : (s.replyWith v).tx = s.tx := rfl
@[simp] theorem State.replyWith_rx (v : Word) : (s.replyWith v).rx = s.rx := rfl
@[simp] theorem State.replyWith_scratch (v : Word) : (s.replyWith v).scratch = s.scratch := rfl
@[simp] theorem State.replyWith_port (v : Word) : (s.replyWith v).port = s.port := rfl
@[simp] theorem State.replyWith_txLen (v : Word) : (s.replyWith v).txLen = s.txLen := rfl
@[simp] theorem State.replyWith_cnt (v : Word) : (s.replyWith v).cnt = s.cnt := rfl
@[simp] theorem State.replyWith_bufs (v : Word) : (s.replyWith v).bufs = s.bufs := rfl
@[simp] theorem State.replyWith_slots (v : Word) : (s.replyWith v).slots = s.slots := rfl
@[simp] theorem State.replyWith_inputs (v : Word) : (s.replyWith v).inputs = s.inputs := rfl
@[simp] theorem State.replyWith_reply (v : Word) : (s.replyWith v).reply = some v := rfl
@[simp] theorem State.replyWith_resets (v : Word) : (s.replyWith v).resets = s.resets := rfl

/-! ### emptyReassembly -/

@[simp] theorem State.emptyReassembly_params : s.emptyReassembly.params = s.params := rfl
@[simp] theorem State.emptyReassembly_cfg : s.emptyReassembly.cfg = s.cfg := rfl
@[simp] theorem State.emptyReassembly_engine : s.emptyReassembly.engine = s.engine := rfl
@[simp] theorem State.emptyReassembly_result : s.emptyReassembly.result = s.result := rfl
@[simp] theorem State.emptyReassembly_flags : s.emptyReassembly.flags = s.flags := rfl
@[simp] theorem State.emptyReassembly_tx : s.emptyReassembly.tx = s.tx := rfl
@[simp] theorem State.emptyReassembly_rx : s.emptyReassembly.rx = { s.rx with count := 0, expect := 0, total := 0, known := false, firstMissing := 0xFFFF, missingCount := 0 } := rfl
@[simp] theorem State.emptyReassembly_scratch : s.emptyReassembly.scratch = s.scratch := rfl
@[simp] theorem State.emptyReassembly_port : s.emptyReassembly.port = s.port := rfl
@[simp] theorem State.emptyReassembly_txLen : s.emptyReassembly.txLen = s.txLen := rfl
@[simp] theorem State.emptyReassembly_cnt : s.emptyReassembly.cnt = s.cnt := rfl
@[simp] theorem State.emptyReassembly_bufs : s.emptyReassembly.bufs = s.bufs := rfl
@[simp] theorem State.emptyReassembly_slots : s.emptyReassembly.slots = [] := rfl
@[simp] theorem State.emptyReassembly_inputs : s.emptyReassembly.inputs = s.inputs := rfl
@[simp] theorem State.emptyReassembly_reply : s.emptyReassembly.reply = s.reply := rfl
@[simp] theorem State.emptyReassembly_resets : s.emptyReassembly.resets = s.resets := rfl

/-! ### writeSlot -/

@[simp] theorem State.writeSlot_params (i : BitVec 16) (d : List Byte) : (s.writeSlot i d).params = s.params := rfl
@[simp] theorem State.writeSlot_cfg (i : BitVec 16) (d : List Byte) : (s.writeSlot i d).cfg = s.cfg := rfl
@[simp] theorem State.writeSlot_engine (i : BitVec 16) (d : List Byte) : (s.writeSlot i d).engine = s.engine := rfl
@[simp] theorem State.writeSlot_result (i : BitVec 16) (d : List Byte) : (s.writeSlot i d).result = s.result := rfl
@[simp] theorem State.writeSlot_flags (i : BitVec 16) (d : List Byte) : (s.writeSlot i d).flags = s.flags := rfl
@[simp] theorem State.writeSlot_tx (i : BitVec 16) (d : List Byte) : (s.writeSlot i d).tx = s.tx := rfl
@[simp] theorem State.writeSlot_rx (i : BitVec 16) (d : List Byte) : (s.writeSlot i d).rx = { s.rx with count := if s.valid i.toNat then s.rx.count else s.rx.count + 1 } := rfl
@[simp] theorem State.writeSlot_scratch (i : BitVec 16) (d : List Byte) : (s.writeSlot i d).scratch = s.scratch := rfl
@[simp] theorem State.writeSlot_port (i : BitVec 16) (d : List Byte) : (s.writeSlot i d).port = s.port := rfl
@[simp] theorem State.writeSlot_txLen (i : BitVec 16) (d : List Byte) : (s.writeSlot i d).txLen = s.txLen := rfl
@[simp] theorem State.writeSlot_cnt (i : BitVec 16) (d : List Byte) : (s.writeSlot i d).cnt = s.cnt := rfl
@[simp] theorem State.writeSlot_bufs (i : BitVec 16) (d : List Byte) : (s.writeSlot i d).bufs = s.bufs := rfl
@[simp] theorem State.writeSlot_slots (i : BitVec 16) (d : List Byte) : (s.writeSlot i d).slots = Sparse.set i.toNat d s.slots := rfl
@[simp] theorem State.writeSlot_inputs (i : BitVec 16) (d : List Byte) : (s.writeSlot i d).inputs = s.inputs := rfl
@[simp] theorem State.writeSlot_reply (i : BitVec 16) (d : List Byte) : (s.writeSlot i d).reply = s.reply := rfl
@[simp] theorem State.writeSlot_resets (i : BitVec 16) (d : List Byte) : (s.writeSlot i d).resets = s.resets := rfl

/-! ### setMissing -/

@[simp] theorem State.setMissing_params (f c : BitVec 16) : (s.setMissing f c).params = s.params := rfl
@[simp] theorem State.setMissing_cfg (f c : BitVec 16) : (s.setMissing f c).cfg = s.cfg := rfl
@[simp] theorem State.setMissing_engine (f c : BitVec 16) : (s.setMissing f c).engine = s.engine := rfl
@[simp] theorem State.setMissing_result (f c : BitVec 16) : (s.setMissing f c).result = s.result := rfl
@[simp] theorem State.setMissing_flags (f c : BitVec 16) : (s.setMissing f c).flags = s.flags := rfl
@[simp] theorem State.setMissing_tx (f c : BitVec 16) : (s.setMissing f c).tx = s.tx := rfl
@[simp] theorem State.setMissing_rx (f c : BitVec 16) : (s.setMissing f c).rx = { s.rx with firstMissing := f, missingCount := c } := rfl
@[simp] theorem State.setMissing_scratch (f c : BitVec 16) : (s.setMissing f c).scratch = s.scratch := rfl
@[simp] theorem State.setMissing_port (f c : BitVec 16) : (s.setMissing f c).port = s.port := rfl
@[simp] theorem State.setMissing_txLen (f c : BitVec 16) : (s.setMissing f c).txLen = s.txLen := rfl
@[simp] theorem State.setMissing_cnt (f c : BitVec 16) : (s.setMissing f c).cnt = s.cnt := rfl
@[simp] theorem State.setMissing_bufs (f c : BitVec 16) : (s.setMissing f c).bufs = s.bufs := rfl
@[simp] theorem State.setMissing_slots (f c : BitVec 16) : (s.setMissing f c).slots = s.slots := rfl
@[simp] theorem State.setMissing_inputs (f c : BitVec 16) : (s.setMissing f c).inputs = s.inputs := rfl
@[simp] theorem State.setMissing_reply (f c : BitVec 16) : (s.setMissing f c).reply = s.reply := rfl
@[simp] theorem State.setMissing_resets (f c : BitVec 16) : (s.setMissing f c).resets = s.resets := rfl

end Sys2Proof.Machine
end

