-- ==== Sys2Proof/Laws/Memory.lean ====
section
/-! SUPPORT. The tables in canonical form, reading after writing, and the bytes a buffer write changes. A prover cites
`State.byteAt_memWrite`, `State.memRead_memWrite` and `Memory.writeAll_wf` instead of unfolding the operations. -/

namespace Sys2Proof.Machine

/-! ## Sparse tables -/

section Sparse
variable {α : Type}

@[simp] theorem Sparse.get?_nil (k : Nat) : Sparse.get? k ([] : List (Nat × α)) = none := rfl

theorem Sparse.get?_cons (k j : Nat) (x : α) (t : List (Nat × α)) :
    Sparse.get? k ((j, x) :: t) = if j = k then some x else Sparse.get? k t := rfl

@[simp] theorem Sparse.get?_set_same (k : Nat) (x : α) (l : List (Nat × α)) :
    Sparse.get? k (Sparse.set k x l) = some x := by
  induction l with
  | nil => simp [Sparse.set, Sparse.get?]
  | cons e t ih =>
    obtain ⟨j, y⟩ := e
    simp only [Sparse.set]
    split
    · simp [Sparse.get?]
    · split
      · simp [Sparse.get?]
      · rename_i h1 h2
        simp [Sparse.get?_cons, ih, Ne.symm h2]

theorem Sparse.get?_set_other {k j : Nat} (h : j ≠ k) (x : α) (l : List (Nat × α)) :
    Sparse.get? j (Sparse.set k x l) = Sparse.get? j l := by
  induction l with
  | nil => simp [Sparse.set, Sparse.get?, Ne.symm h]
  | cons e t ih =>
    obtain ⟨i, y⟩ := e
    simp only [Sparse.set]
    split
    · simp [Sparse.get?_cons, Ne.symm h]
    · split
      · rename_i h1 h2
        subst h2
        simp [Sparse.get?_cons, Ne.symm h]
      · simp [Sparse.get?_cons, ih]

/-- What a table holds after one entry is set. -/
theorem Sparse.get?_set (j k : Nat) (x : α) (l : List (Nat × α)) :
    Sparse.get? j (Sparse.set k x l) = if j = k then some x else Sparse.get? j l := by
  by_cases h : j = k
  · subst h; simp
  · simp [Sparse.get?_set_other h, h]

theorem Sparse.mem_keys_set {j k : Nat} {x : α} {l : List (Nat × α)}
    (h : j ∈ (Sparse.set k x l).map Prod.fst) : j = k ∨ j ∈ l.map Prod.fst := by
  induction l with
  | nil => simpa [Sparse.set] using h
  | cons e t ih =>
    obtain ⟨i, y⟩ := e
    simp only [Sparse.set] at h
    split at h
    · simpa using h
    · split at h
      · rcases List.mem_cons.mp h with h | h
        · exact .inl h
        · exact .inr (List.mem_cons_of_mem _ h)
      · rcases List.mem_cons.mp h with h | h
        · exact .inr (by simp [h])
        · exact (ih h).imp id fun h => List.mem_cons_of_mem _ h

/-- Setting an entry keeps the canonical form. -/
theorem Sparse.wf_set {k : Nat} {x : α} {l : List (Nat × α)} (h : Sparse.wf l) : Sparse.wf (Sparse.set k x l) := by
  induction l with
  | nil => simp [Sparse.set, Sparse.wf]
  | cons e t ih =>
    obtain ⟨i, y⟩ := e
    have ht : ∀ j ∈ t.map Prod.fst, i < j := (List.pairwise_cons.mp h).1
    have hw : Sparse.wf t := (List.pairwise_cons.mp h).2
    simp only [Sparse.set]
    split
    · rename_i h1
      refine List.pairwise_cons.mpr ⟨?_, h⟩
      intro j hj
      rcases List.mem_cons.mp hj with hj | hj
      · simpa [hj] using h1
      · exact lt_trans h1 (ht j hj)
    · split
      · rename_i h1 h2
        subst h2
        exact List.pairwise_cons.mpr ⟨ht, hw⟩
      · rename_i h1 h2
        refine List.pairwise_cons.mpr ⟨?_, ih hw⟩
        intro j hj
        rcases Sparse.mem_keys_set hj with hj | hj
        · subst hj; exact lt_of_le_of_ne (not_lt.mp h1) (Ne.symm h2)
        · exact ht j hj

/-- A key has an entry exactly when it is listed. -/
theorem Sparse.get?_isSome (k : Nat) (l : List (Nat × α)) :
    (Sparse.get? k l).isSome = true ↔ k ∈ l.map Prod.fst := by
  induction l with
  | nil => simp
  | cons e t ih =>
    obtain ⟨j, y⟩ := e
    by_cases h : j = k
    · simp [Sparse.get?_cons, h]
    · simp [Sparse.get?_cons, h, ih, Ne.symm h]

/-- Two tables in canonical form that answer alike are equal: equal tables are equal data. -/
theorem Sparse.ext_of_wf {l l' : List (Nat × α)} (h : Sparse.wf l) (h' : Sparse.wf l')
    (he : ∀ k, Sparse.get? k l = Sparse.get? k l') : l = l' := by
  induction l generalizing l' with
  | nil =>
    cases l' with
    | nil => rfl
    | cons e t => have := he e.1; simp [Sparse.get?] at this
  | cons e t ih =>
    obtain ⟨i, x⟩ := e
    cases l' with
    | nil => have := he i; simp [Sparse.get?] at this
    | cons e' t' =>
      obtain ⟨j, y⟩ := e'
      have hl := List.pairwise_cons.mp h
      have hl' := List.pairwise_cons.mp h'
      have hmem : ∀ {k : Nat} {u : List (Nat × α)}, (Sparse.get? k u).isSome = true → k ∈ u.map Prod.fst :=
        fun {k u} => (Sparse.get?_isSome k u).mp
      have hij : i = j := by
        by_contra hne
        have h1 : (Sparse.get? i ((j, y) :: t')).isSome = true := by rw [← he i]; simp [Sparse.get?]
        have h2 : (Sparse.get? j ((i, x) :: t)).isSome = true := by rw [he j]; simp [Sparse.get?]
        rw [Sparse.get?_cons, if_neg (Ne.symm hne)] at h1
        rw [Sparse.get?_cons, if_neg hne] at h2
        exact absurd (hl'.1 i (hmem h1)) (not_lt.mpr (le_of_lt (hl.1 j (hmem h2))))
      subst hij
      have hx := he i
      simp only [Sparse.get?_cons, if_true, Option.some.injEq] at hx
      subst hx
      have ht : t = t' := by
        refine ih hl.2 hl'.2 fun k => ?_
        have hk := he k
        by_cases hki : i = k
        · subst hki
          have a : Sparse.get? i t = none := by
            rw [← Option.not_isSome_iff_eq_none]
            exact fun hs => absurd (hl.1 i (hmem hs)) (lt_irrefl i)
          have b : Sparse.get? i t' = none := by
            rw [← Option.not_isSome_iff_eq_none]
            exact fun hs => absurd (hl'.1 i (hmem hs)) (lt_irrefl i)
          rw [a, b]
        · simpa [Sparse.get?_cons, hki] using hk
      rw [ht]

end Sparse

/-! ## Memory -/

/-- What a memory holds after a string of bytes is written from address `a` on. -/
theorem Memory.get?_writeAll (j a : Nat) (x : List Byte) (m : Memory) :
    Sparse.get? j (Memory.writeAll a x m) = if a ≤ j then x[j - a]?.or (Sparse.get? j m) else Sparse.get? j m := by
  induction x generalizing a m with
  | nil => simp [Memory.writeAll]
  | cons b t ih =>
    rw [Memory.writeAll, ih, Sparse.get?_set]
    rcases lt_trichotomy j a with h | h | h
    · simp [show ¬ a + 1 ≤ j by omega, show ¬ a ≤ j by omega, show j ≠ a by omega]
    · subst h; simp
    · obtain ⟨d, rfl⟩ := Nat.exists_eq_add_of_lt h
      simp [show a + 1 ≤ a + d + 1 by omega, show a ≤ a + d + 1 by omega, show a + d + 1 ≠ a by omega,
        show a + d + 1 - (a + 1) = d by omega, show a + d + 1 - a = d + 1 by omega]

/-- Writing keeps the canonical form of a memory. -/
theorem Memory.writeAll_wf (a : Nat) (x : List Byte) {m : Memory} (h : Memory.wf m) :
    Memory.wf (Memory.writeAll a x m) := by
  induction x generalizing a m with
  | nil => exact h
  | cons b t ih => exact ih (a + 1) (Sparse.wf_set h)

@[simp] theorem Buffers.get_put_same (b : Buffer) (x : Memory) (m : Buffers) : (m.put b x).get b = x := by
  cases b <;> rfl

theorem Buffers.get_put_other {b b' : Buffer} (h : b' ≠ b) (x : Memory) (m : Buffers) :
    (m.put b x).get b' = m.get b' := by
  cases b <;> cases b' <;> first | rfl | exact absurd rfl h

/-- A write to one buffer keeps the canonical form of all of them. -/
theorem State.memWrite_wf (s : State) (b : Buffer) (a : Nat) (x : List Byte)
    (h : ∀ b', Memory.wf (s.bufs.get b')) (b' : Buffer) : Memory.wf ((s.memWrite b a x).bufs.get b') := by
  by_cases hb : b' = b
  · subst hb; simpa using Memory.writeAll_wf a x (h b')
  · simpa [Buffers.get_put_other hb] using h b'

/-- `State.reset`'s memory is in canonical form. -/
theorem Buffers.unwritten_wf (b : Buffer) : Memory.wf (Buffers.unwritten.get b) := by
  cases b <;> exact List.Pairwise.nil

/-! ## Bytes -/

/-- Which byte of which buffer a write changes, and to what. -/
theorem State.byteAt_memWrite (s : State) (b b' : Buffer) (a j : Nat) (x : List Byte) :
    (s.memWrite b a x).byteAt b' j =
      if b' = b ∧ a ≤ j then (x[j - a]?).getD (s.byteAt b j) else s.byteAt b' j := by
  by_cases hb : b' = b
  · subst hb
    simp only [State.byteAt, State.memWrite_bufs, State.memWrite_resets, Buffers.get_put_same,
      Memory.get?_writeAll, true_and]
    split
    · cases x[j - a]? <;> simp
    · rfl
  · simp [State.byteAt, Buffers.get_put_other hb, hb]

/-- A byte read depends on its buffer and the draw alone. -/
theorem State.byteAt_congr {s t : State} {b : Buffer} (h : t.bufs.get b = s.bufs.get b) (hr : t.resets = s.resets)
    (a : Nat) : t.byteAt b a = s.byteAt b a := by
  simp [State.byteAt, h, hr]

@[simp] theorem State.memRead_length (s : State) (b : Buffer) (a n : Nat) : (s.memRead b a n).length = n := by
  simp [State.memRead]

theorem State.memRead_getElem? (s : State) (b : Buffer) (a n i : Nat) (h : i < n) :
    (s.memRead b a n)[i]? = some (s.byteAt b (a + i)) := by
  simp [State.memRead, h]

theorem State.memRead_congr {s t : State} {b : Buffer} {a n : Nat}
    (h : ∀ i, i < n → t.byteAt b (a + i) = s.byteAt b (a + i)) : t.memRead b a n = s.memRead b a n := by
  simp only [State.memRead]
  exact List.map_congr_left fun i hi => h i (List.mem_range.mp hi)

/-- Reading what was written. -/
theorem State.memRead_memWrite (s : State) (b : Buffer) (a : Nat) (x : List Byte) :
    (s.memWrite b a x).memRead b a x.length = x := by
  apply List.ext_getElem?
  intro i
  by_cases h : i < x.length
  · rw [State.memRead_getElem? _ _ _ _ _ h, State.byteAt_memWrite]
    simp [h]
  · rw [List.getElem?_eq_none (by simp; omega), List.getElem?_eq_none (by omega)]

/-- A write to one buffer leaves what another reads. -/
theorem State.memRead_memWrite_other (s : State) {b b' : Buffer} (h : b' ≠ b) (a j n : Nat) (x : List Byte) :
    (s.memWrite b a x).memRead b' j n = s.memRead b' j n :=
  State.memRead_congr fun i _ => by simp [State.byteAt_memWrite, h]

end Sys2Proof.Machine
end

