-- ==== Sys2Proof/Laws/Ops.lean ====
section
/-! SUPPORT. For each shared operation, one lemma that says once what it can do. -/

namespace Sys2Proof.Machine

/-! ## Accepting a command -/

theorem State.whenIdle_idle {s : State} (h : s.engine = .idle) (run : State → State) :
    s.whenIdle run = .next (run s) := if_pos h

theorem State.whenIdle_busy {s : State} (h : s.engine ≠ .idle) (run : State → State) :
    s.whenIdle run = .next s.refuseCommand := if_neg h

/-- All an IDLE-only command can do: its effect in IDLE, the refusal elsewhere. -/
theorem State.whenIdle_cases {s t : State} {run : State → State} (h : s.whenIdle run = .next t) :
    (s.engine = .idle ∧ t = run s) ∨ (s.engine ≠ .idle ∧ t = s.refuseCommand) := by
  by_cases hi : s.engine = .idle
  · rw [State.whenIdle_idle hi] at h
    exact .inl ⟨hi, by injection h with h; exact h.symm⟩
  · rw [State.whenIdle_busy hi] at h
    exact .inr ⟨hi, by injection h with h; exact h.symm⟩

/-! ## Flags and counters -/

/-- A flag that is set is 1, and no other flag changes. -/
theorem State.hasFlag_setFlag (f g : Flag) (s : State) :
    (s.setFlag f).hasFlag g = (s.hasFlag g || decide (g = f)) := by
  cases f <;> cases g <;> simp [State.hasFlag, State.setFlag, Flag.mask, Flag.bit]

/-- The session flags are cleared; CMD_ERR and HOST_ERR stay. -/
theorem State.hasFlag_clearSessionFlags (g : Flag) (s : State) :
    s.clearSessionFlags.hasFlag g = (s.hasFlag g && (decide (g = .cmdErr) || decide (g = .hostErr))) := by
  cases g <;> simp [State.hasFlag, State.clearSessionFlags, Flag.bit]

/-- One counter goes one up, saturating; the others stay. -/
theorem Counters.get_inc (c d : Counter) (k : Counters) :
    (k.inc c).get d = if d = c then sat16Succ (k.get d) else k.get d := by
  cases c <;> cases d <;> rfl

theorem sat16Succ_toNat (c : BitVec 16) : (sat16Succ c).toNat = min (c.toNat + 1) 0xFFFF := by
  simp [sat16Succ, BitVec.toNat_ofNat]

/-! ## Offering a message and ending a session -/

/-- The bytes an offer changes: `TXMSG` holds the message, its other bytes and every other buffer read as before. -/
theorem State.byteAt_offer (s : State) (m : List Byte) (b : Buffer) (j : Nat) :
    (s.offer m).byteAt b j = if b = .txmsg then (m[j]?).getD (s.byteAt .txmsg j) else s.byteAt b j := by
  have h : (s.offer m).byteAt b j = (s.memWrite .txmsg 0 m).byteAt b j := rfl
  rw [h, State.byteAt_memWrite]
  simp

/-- A message short enough for TX_LEN is what the port would present. -/
theorem State.memRead_offer (s : State) {m : List Byte} (h : m.length ≤ 65535) :
    (s.offer m).memRead .txmsg 0 (s.offer m).txLen.toNat = m := by
  have hl : (s.offer m).txLen.toNat = m.length := by
    simp [BitVec.toNat_ofNat]; omega
  rw [hl]
  exact s.memRead_memWrite .txmsg 0 m

/-- All that `finish` does (R263). -/
theorem State.finish_eq (c : ResultCode) (d : BitVec 8) (s : State) :
    s.finish c d =
      { s with
        result := { code := c, detail := d }, tx := { s.tx with timer := 0 }, engine := .idle,
        flags := s.flags ||| Flag.done.mask } := rfl

/-- All that writing a result message does (R121, R146, R148). -/
theorem State.writeMsg_eq (m : List Byte) (s : State) :
    s.writeMsg m =
      { s with
        bufs := s.bufs.put .msg (Memory.writeAll 0 m s.bufs.msg)
        scratch :=
          { s.scratch with msgLen := BitVec.ofNat 16 m.length, opStatus := { code := .ok, detail := 0 } } } := rfl

/-! ## Slots -/

theorem State.valid_writeSlot (i : BitVec 16) (d : List Byte) (s : State) (j : Nat) :
    (s.writeSlot i d).valid j = (s.valid j || decide (j = i.toNat)) := by
  simp only [State.valid, State.writeSlot_slots, Sparse.get?_set]
  split <;> simp_all

theorem State.slotData_writeSlot (i : BitVec 16) (d : List Byte) (s : State) (j : Nat) :
    (s.writeSlot i d).slotData j = if j = i.toNat then d else s.slotData j := by
  simp only [State.slotData, State.writeSlot_slots, Sparse.get?_set]
  split <;> simp

/-! ## Cutting a message at the delimiter -/

theorem split_ne_nil (c : Byte) (m : List Byte) : split c m ≠ [] := by
  induction m with
  | nil => simp [split]
  | cons b t ih =>
    simp only [split]
    split
    · simp
    · split <;> simp

/-- `split(s, c)` has `count(s, c) + 1` pieces (R15). -/
theorem split_length (c : Byte) (m : List Byte) : (split c m).length = m.count c + 1 := by
  induction m with
  | nil => rfl
  | cons b t ih =>
    simp only [split]
    by_cases h : b = c
    · simp [h, ih]
    · simp only [h, if_false, List.count_cons_of_ne h]
      cases hs : split c t with
      | nil => exact absurd hs (split_ne_nil c t)
      | cons p ps => rw [← ih, hs]; rfl

/-- A piece followed by the delimiter is cut off; the rest is cut on. -/
theorem split_append {c : Byte} {p : List Byte} (h : c ∉ p) (t : List Byte) :
    split c (p ++ c :: t) = p :: split c t := by
  induction p with
  | nil => simp [split]
  | cons b q ih =>
    simp only [List.mem_cons, not_or] at h
    simp [split, ih h.2, Ne.symm h.1]

/-- A string without the delimiter is one piece. -/
theorem split_of_not_mem {c : Byte} {p : List Byte} (h : c ∉ p) : split c p = [p] := by
  induction p with
  | nil => rfl
  | cons b q ih =>
    simp only [List.mem_cons, not_or] at h
    simp [split, ih h.2, Ne.symm h.1]

/-! ## Events and steps -/

/-- With no event waiting a step changes nothing. -/
theorem step_of_no_input {s : State} (h : s.inputs = []) : step s = .next s := by
  simp [step, State.takeEvent, h]

/-- With an event waiting a step performs it. -/
theorem step_of_input {s : State} {e : Event} {rest : List Event} (h : s.inputs = e :: rest) :
    step s = perform e { s with inputs := rest, reply := none } := by
  simp [step, State.takeEvent, h]

/-- All a step can do when it answers a next state. -/
theorem step_cases {s t : State} (h : step s = .next t) :
    (s.inputs = [] ∧ t = s) ∨
    ∃ e rest, s.inputs = e :: rest ∧ perform e { s with inputs := rest, reply := none } = .next t := by
  cases hi : s.inputs with
  | nil =>
    rw [step_of_no_input hi] at h
    exact .inl ⟨rfl, by injection h with h; exact h.symm⟩
  | cons e rest => exact .inr ⟨e, rest, rfl, by rw [← step_of_input hi]; exact h⟩

/-- Every command answers a next state, in every state: no command stops (R260). -/
theorem exec_next (i : Instr) (s : State) : ∃ t, exec i s = .next t := by
  have hw : ∀ run, ∃ t, s.whenIdle run = .next t := fun run => by
    by_cases h : s.engine = .idle
    · exact ⟨_, s.whenIdle_idle h run⟩
    · exact ⟨_, s.whenIdle_busy h run⟩
  cases i <;> first | exact ⟨_, rfl⟩ | exact hw _

/-- Where `RxDeliver` is taken, and by which unit. -/
theorem rxDeliver_cases {st : Status} {m : List Byte} {s t : State} (h : rxDeliver st m s = .next t) :
    (s.engine = .sWait ∧ t = senderRxDeliver st m s) ∨ (s.engine = .rListen ∧ t = receiverRxDeliver st m s) := by
  unfold rxDeliver at h
  split at h <;> first | (injection h with h; simp_all) | cases h

/-- Where `TxDone` is taken, and by which unit. -/
theorem txDone_cases {st : Status} {s t : State} (h : txDone st s = .next t) :
    (s.engine = .sSend ∧ ((st = .ok ∧ t = senderTxDoneOk s) ∨ (st = .fail ∧ t = senderTxDoneFail s))) ∨
    (s.engine = .sEnd ∧ t = sentinelTxDone st s) ∨ (s.engine = .rAck ∧ t = receiverTxDone st s) := by
  unfold txDone at h
  split at h
  · split at h <;> (injection h with h; simp_all)
  · injection h with h; simp_all
  · injection h with h; simp_all
  · cases h
  · cases h
  · cases h

end Sys2Proof.Machine
end

