-- ==== Sys2Proof/Laws/PerInstr.lean ====
section
/-! SUPPORT. Statements for all commands, one lemma per constructor of `Instr`. -/

namespace Sys2Proof.Laws

/-- A command's word has its OPCODE in bits 7:0 and zero in bits 31:8 (spec/30_encoding.md R80), the decoder reads it
back, and the command is well formed. -/
def CommandWord.Statement (i : Instr) : Prop :=
  i.wf = true ∧ (encode i).extractLsb' 0 8 = i.opcode ∧ (encode i).extractLsb' 8 24 = 0#24 ∧ decodeWord (encode i) = .ok i

theorem CommandWord.nop : CommandWord.Statement .nop := ⟨rfl, rfl, rfl, rfl⟩
theorem CommandWord.startSend : CommandWord.Statement .startSend := ⟨rfl, rfl, rfl, rfl⟩
theorem CommandWord.startRecv : CommandWord.Statement .startRecv := ⟨rfl, rfl, rfl, rfl⟩
theorem CommandWord.abort : CommandWord.Statement .abort := ⟨rfl, rfl, rfl, rfl⟩
theorem CommandWord.clear : CommandWord.Statement .clear := ⟨rfl, rfl, rfl, rfl⟩
theorem CommandWord.opChecksum : CommandWord.Statement .opChecksum := ⟨rfl, rfl, rfl, rfl⟩
theorem CommandWord.opEncode : CommandWord.Statement .opEncode := ⟨rfl, rfl, rfl, rfl⟩
theorem CommandWord.opDecode : CommandWord.Statement .opDecode := ⟨rfl, rfl, rfl, rfl⟩
theorem CommandWord.opFragment : CommandWord.Statement .opFragment := ⟨rfl, rfl, rfl, rfl⟩
theorem CommandWord.opEncAck : CommandWord.Statement .opEncAck := ⟨rfl, rfl, rfl, rfl⟩
theorem CommandWord.opDecAck : CommandWord.Statement .opDecAck := ⟨rfl, rfl, rfl, rfl⟩
theorem CommandWord.opEncSentinel : CommandWord.Statement .opEncSentinel := ⟨rfl, rfl, rfl, rfl⟩
theorem CommandWord.opIsSentinel : CommandWord.Statement .opIsSentinel := ⟨rfl, rfl, rfl, rfl⟩

end Sys2Proof.Laws
end

