-- ==== Sys2Proof/Tests/Slice0.lean ====
section
/-! SUPPORT. The model's own tests. Every expected value of a `test_` theorem is a value of spec/95_test_vectors.md, of the
tables of spec/30_encoding.md and spec/20_memory.md, or of a rule's own example. A `witness_` theorem shows concrete values
that meet the hypotheses of the statement it is named after, clause by clause. -/

namespace Sys2Proof.Tests

open Sys2Proof Sys2Proof.Machine

/-! ## Small states -/

/-- The bytes of an ASCII string. -/
def txt (s : String) : List Byte := s.toList.map fun c => BitVec.ofNat 8 c.toNat

/-- The next state, if there is one. -/
def after (o : Host.Outcome State Fault Refusal) : Option State :=
  match o with
  | .next t => some t
  | .fault _ => none
  | .refused _ => none

/-- The base configuration of spec/95_test_vectors.md section 2.7, in IDLE. -/
def sender : State :=
  { State.reset with
    cfg :=
      { coding := .text, strayPolicy := false, irqEn := false, chunkSize := 5, maxRetries := 3, ackTimeout := 3,
        payloadLen := 12 }
    bufs := { Buffers.unwritten with payload := Memory.writeAll 0 (txt "HELLO WORLD!") [] } }

/-- The base configuration with one configuration register changed. -/
def senderWith (f : ConfigRegs → ConfigRegs) : State := { sender with cfg := f sender.cfg }

/-- S_SEND, S_WAIT and S_END of a session on the base configuration. -/
def sending : State := runStartSend sender
def waiting : State := senderTxDoneOk sending
def ending : State := { waiting with engine := .sEnd, tx := { waiting.tx with chunk := 3, timer := 0 } }

/-- The receiver's configuration of section 2.9, in IDLE. -/
def receiver : State := { State.reset with cfg := { State.reset.cfg with chunkSize := 4 } }

/-- R_LISTEN, R_ACK after storing chunk 0 of 3, and R_LISTEN holding it. -/
def listening : State := runStartRecv receiver
def acking : State := receiverRxDeliver .ok (txt "0|3|130|AA") listening
def holding : State := receiverTxDone .ok acking

/-- IDLE with a scratch frame: its registers, and `DATA` holding `d`. -/
def withFrame (id total : BitVec 16) (cs : BitVec 8) (d : List Byte) (c : Coding) : State :=
  { State.reset with
    cfg := { State.reset.cfg with coding := c }
    scratch :=
      { State.reset.scratch with
        fChunkId := id, fTotal := total, fChecksum := cs, fLen := BitVec.ofNat 16 d.length }
    bufs := { Buffers.unwritten with data := Memory.writeAll 0 d [] } }

/-- IDLE with a scratch message. -/
def withMsg (m : List Byte) (c : Coding) : State :=
  { State.reset with
    cfg := { State.reset.cfg with coding := c }
    scratch := { State.reset.scratch with msgLen := BitVec.ofNat 16 m.length, ackExpect := 2, ackId := 0x1234 }
    bufs := { Buffers.unwritten with msg := Memory.writeAll 0 m [] } }

/-- IDLE with one scratch length at 256, one more than `P_MAX_MSG`. -/
def overlong : State :=
  { State.reset with scratch := { State.reset.scratch with fLen := 256, msgLen := 256 } }

/-- A payload of 65536 bytes in a block that has room for it: too many chunks of one byte. -/
def huge : State :=
  { State.resetWith { maxMsg := 255, payloadBytes := 70000, maxChunks := 16 } with
    cfg := { sender.cfg with chunkSize := 1, payloadLen := 65536 } }

/-- The base configuration in a block whose messages hold 16 bytes. -/
def narrow : State :=
  { sender with params := { maxMsg := 16, payloadBytes := 1024, maxChunks := 16 } }

/-- A frame with its right checksum, as section 2.9 delivers it. -/
def good (k n : Nat) (d : String) : Frame := makeFrame k n (txt d)

/-! ## Well-formedness -/

theorem test_wf_params : Config.params.wf = true := by decide
theorem test_wf_maxMsg_low : ({ maxMsg := 15, payloadBytes := 1024, maxChunks := 16 } : Params).wf = false := by decide
theorem test_wf_maxMsg_high : ({ maxMsg := 65536, payloadBytes := 1, maxChunks := 1 } : Params).wf = false := by decide
theorem test_wf_payload_low : ({ maxMsg := 16, payloadBytes := 0, maxChunks := 1 } : Params).wf = false := by decide
theorem test_wf_payload_high : ({ maxMsg := 16, payloadBytes := 16777216, maxChunks := 1 } : Params).wf = false := by
  decide
theorem test_wf_chunks_low : ({ maxMsg := 16, payloadBytes := 1, maxChunks := 0 } : Params).wf = false := by decide
theorem test_wf_chunks_high : ({ maxMsg := 16, payloadBytes := 1, maxChunks := 65536 } : Params).wf = false := by decide
theorem test_wf_smallest : ({ maxMsg := 16, payloadBytes := 1, maxChunks := 1 } : Params).wf = true := by decide

/-! ## Decoding (the opcode map of spec/30_encoding.md R81, bit by bit) -/

theorem test_decode_nop : decodeWord 0b00000000000000000000000000000000#32 = .ok .nop := by rfl
theorem test_decode_startSend : decodeWord 0b00000000000000000000000000000001#32 = .ok .startSend := by rfl
theorem test_decode_startRecv : decodeWord 0b00000000000000000000000000000010#32 = .ok .startRecv := by rfl
theorem test_decode_abort : decodeWord 0b00000000000000000000000000000011#32 = .ok .abort := by rfl
theorem test_decode_clear : decodeWord 0b00000000000000000000000000000100#32 = .ok .clear := by rfl
theorem test_decode_opChecksum : decodeWord 0b00000000000000000000000000010000#32 = .ok .opChecksum := by rfl
theorem test_decode_opEncode : decodeWord 0b00000000000000000000000000010001#32 = .ok .opEncode := by rfl
theorem test_decode_opDecode : decodeWord 0b00000000000000000000000000010010#32 = .ok .opDecode := by rfl
theorem test_decode_opFragment : decodeWord 0b00000000000000000000000000010011#32 = .ok .opFragment := by rfl
theorem test_decode_opEncAck : decodeWord 0b00000000000000000000000000010100#32 = .ok .opEncAck := by rfl
theorem test_decode_opDecAck : decodeWord 0b00000000000000000000000000010101#32 = .ok .opDecAck := by rfl
theorem test_decode_opEncSentinel : decodeWord 0b00000000000000000000000000010110#32 = .ok .opEncSentinel := by rfl
theorem test_decode_opIsSentinel : decodeWord 0b00000000000000000000000000010111#32 = .ok .opIsSentinel := by rfl
theorem test_decode_unassigned : decodeWord 0x00000005 = .error .unassignedOpcode := by rfl
theorem test_decode_reserved_high : decodeWord 0x80000001 = .error .reservedBitsSet := by rfl
theorem test_decode_reserved_low : decodeWord 0x00000100 = .error .reservedBitsSet := by rfl
theorem test_decodeTableWord : decodeTableWord 32 0x11 = some .opEncode := by rfl
theorem test_decodeTableWord_refused : decodeTableWord 32 0x18 = none := by rfl
theorem test_withFetchWord :
    (after (step (State.reset.withFetchWord 32 0x16))).map (fun t => (t.scratch.msgLen, t.bufs.msg)) =
      some (3, [(0, 0x45), (1, 0x4E), (2, 0x44)]) := by decide

/-! ## Commands -/

theorem test_nop : (after (exec .nop waiting)).map (fun t => (t.engine, t.tx.timer)) = some (.sWait, 3) := by decide
theorem test_startSend :
    (after (exec .startSend sender)).map (fun t => (t.engine, t.txPort, t.tx.chunk, t.tx.total, t.tx.attempt)) =
      some (.sSend, some (txt "0|3|116|HELLO"), 0, 3, 1) := by decide
theorem test_startSend_unsafe :
    (after (exec .startSend
      { sender with bufs := { sender.bufs with payload := Sparse.set 11 0x7F sender.bufs.payload } })).map
        (fun t => (t.engine, t.result, t.flags)) = some (.idle, { code := .cfgError, detail := 7 }, 1) := by decide
/-- R202: "The sender's registers (`TX_*`) are not changed." -/
theorem test_startRecv :
    (after (exec .startRecv { receiver with tx := { ending.tx with attempt := 2 } })).map
      (fun t => (t.engine, t.readReg .status, t.tx)) = some (.rListen, 0x34, { ending.tx with attempt := 2 }) := by decide
theorem test_startRecv_refused :
    (after (exec .startRecv State.reset)).map (fun t => (t.engine, t.readReg .result)) = some (.idle, 0x107) := by decide
theorem test_abort_waiting :
    (after (exec .abort waiting)).map (fun t => (t.readReg .result, t.readReg .txRetry, t.readReg .flags)) =
      some (0x206, 1, 1) := by decide
theorem test_abort_acking :
    (after (exec .abort acking)).map (fun t => (t.readReg .result, t.slots, t.txPort)) =
      some (0x506, [], none) := by decide
theorem test_clear :
    (after (exec .clear { ending with engine := .idle, flags := 0x3FF })).map
      (fun t => (t.readReg .result, t.flags, t.cnt)) = some (0, 0, Counters.zero) := by decide
theorem test_clear_refused :
    (after (exec .clear waiting)).map (fun t => (t.engine, t.flags, t.tx.timer)) = some (.sWait, 2, 3) := by decide
theorem test_opChecksum :
    (after (exec .opChecksum (withFrame 0 0 0 (txt "HELLO WORLD!") .text))).map
      (fun t => (t.scratch.csumOut, t.readReg .opStatus)) = some (61, 1) := by decide
theorem test_opChecksum_wraps :
    (after (exec .opChecksum (withFrame 0 0 0 [0xFF, 0x01] .text))).map (fun t => t.scratch.csumOut) = some 0 := by decide
theorem test_opEncode_hex :
    (after (exec .opEncode (withFrame 0 1 123 [0x00, 0xFF, 0x7C] .hex))).map (fun t => (t.scratchMsg, t.readReg .opStatus)) =
      some (txt "0|1|123|00FF7C", 1) := by decide
theorem test_opEncode_unsafe :
    (after (exec .opEncode (withFrame 0 1 0 [0x61, 0x7C, 0x62] .text))).map
      (fun t => (t.scratch.msgLen, t.readReg .opStatus)) = some (0, 3) := by decide
theorem test_opDecode_hex :
    (after (exec .opDecode (withMsg (txt "2|3|77|abcd") .hex))).map (fun t => (t.scratchFrame, t.scratch.csumOut)) =
      some ({ chunkId := 2, totalChunks := 3, checksum := 77, data := [0xAB, 0xCD] }, 120) := by decide
theorem test_opDecode_leading_zero :
    (after (exec .opDecode (withMsg (txt "02|3|77|ab") .text))).map (fun t => (t.scratch.fTotal, t.readReg .opStatus)) =
      some (0, 0x202) := by decide
theorem test_opFragment_last :
    (after (exec .opFragment { sender with scratch := { sender.scratch with fChunkId := 2 } })).map
      (fun t => (t.scratchFrame, t.scratch.csumOut)) =
        some ({ chunkId := 2, totalChunks := 3, checksum := 101, data := txt "D!" }, 101) := by decide
theorem test_opFragment_beyond :
    (after (exec .opFragment { sender with scratch := { sender.scratch with fChunkId := 3 } })).map
      (fun t => (t.scratch.fTotal, t.readReg .opStatus)) = some (0, 0x505) := by decide
theorem test_opEncAck :
    (after (exec .opEncAck
      { State.reset with scratch := { State.reset.scratch with ackId := 0xFFFF, ackOk := true } })).map
        (fun t => (t.scratchMsg, t.scratch.msgLen)) = some (txt "ACK|65535", 9) := by decide
theorem test_opDecAck_unmatched :
    (after (exec .opDecAck (withMsg (txt "ACK|1") .text))).map (fun t => (t.readReg .opStatus, t.readReg .ackCtrl)) =
      some (8, 0x10001) := by decide
theorem test_opDecAck_no_ack :
    (after (exec .opDecAck (withMsg (txt "ERROR:2") .text))).map (fun t => (t.readReg .opStatus, t.readReg .ackCtrl)) =
      some (9, 0x1234) := by decide
theorem test_opEncSentinel :
    (after (exec .opEncSentinel State.reset)).map (fun t => (t.scratchMsg, t.scratch.msgLen)) = some (txt "END", 3) := by
  decide
theorem test_opIsSentinel :
    (after (exec .opIsSentinel (withMsg (txt "END") .hex))).map (fun t => t.readReg .opStatus) = some 0x0A := by decide
theorem test_opIsSentinel_case :
    (after (exec .opIsSentinel (withMsg (txt "end") .text))).map (fun t => t.readReg .opStatus) = some 0x0B := by decide

/-! ## Events -/

theorem test_txDone_fail :
    (after (perform (.txDone .fail) sending)).map (fun t => (t.engine, t.readReg .txRetry, t.flags, t.readReg .cnt0)) =
      some (.sSend, 0x602, 0x300, 0x10000) := by decide
/-- Section 2.8, `TxDone(FAIL) x 3`, the third. -/
theorem test_retries_exhausted :
    (after (perform (.txDone .fail) { sending with tx := { sending.tx with attempt := 3, last := .txFail } })).map
      (fun t => (t.engine, t.readReg .txRetry, t.readReg .result, t.readReg .txFailId)) =
        some (.idle, 0x603, 0x602, 0) := by decide
/-- Section 2.8, `TxDone(OK)` of the sentinel. -/
theorem test_sentinel_taken :
    (after (perform (.txDone .ok) { ending with tx := { ending.tx with attempt := 1, last := .acked, timer := 0 } })).map
      (fun t => (t.engine, t.readReg .txRetry, t.readReg .result)) = some (.idle, 0x101, 1) := by decide
theorem test_third_tick_times_out :
    (after (perform .tick { waiting with tx := { waiting.tx with timer := 1 } })).map
      (fun t => (t.engine, t.readReg .txRetry, t.readReg .cnt1)) = some (.sSend, 0x202, 0x10001) := by decide
theorem test_ack_advances :
    (after (perform (.rxDeliver .ok (txt "ACK|0")) waiting)).map
      (fun t => (t.engine, t.readReg .txPos, t.readReg .txRetry, t.txPort)) =
        some (.sSend, 0x30001, 0x101, some (txt "1|3|100| WORL")) := by decide
theorem test_frame_stored :
    (after (perform (.rxDeliver .ok (txt "0|3|130|AA")) listening)).map
      (fun t => (t.readReg .rxTotal, t.readReg .rxCount, t.readReg .rxLast, t.txPort)) =
        some (0x10003, 0x10001, 1, some (txt "ACK|0")) := by decide
theorem test_checksum_mismatch :
    (after (perform (.rxDeliver .ok (txt "2|3|77|abcd")) listening)).map
      (fun t => (t.slots, t.rx.known, t.readReg .rxLast, t.txPort)) =
        some ([], false, 0x20003, some (txt "ERR|2")) := by decide
theorem test_total_mismatch :
    (after (perform (.rxDeliver .ok (txt "1|4|65|A")) holding)).map (fun t => (t.readReg .rxLast, t.txPort)) =
      some (0x10304, some (txt "ERR|1")) := by decide
theorem test_duplicate_overwrites :
    (after (perform (.rxDeliver .ok (txt "0|3|132|BB")) holding)).map
      (fun t => (t.slots, t.readReg .rxCount, t.readReg .rxLast)) = some ([(0, txt "BB")], 0x10001, 0x101) := by decide
theorem test_incomplete :
    (after (perform (.rxDeliver .ok (txt "END")) holding)).map
      (fun t => (t.engine, t.readReg .result, t.readReg .rxMissing)) = some (.idle, 0x205, 0x20001) := by decide
theorem test_host_id :
    (after (perform (.hostRead 0) State.reset)).map (fun t => t.reply) = some (some 0x43540100) := by decide
theorem test_host_reserved :
    (after (perform (.hostRead 0x7C) State.reset)).map (fun t => (t.reply, t.flags)) = some (some 0, 4) := by decide
theorem test_bitmap :
    (after (perform (.hostRead 0x70) { holding with port := { sel := 4, addr := 0 } })).map
      (fun t => (t.reply, t.port.addr)) = some (some 1, 1) := by decide
theorem test_write_txmsg_refused :
    (after (perform (.hostWrite 0x70 0x41) { sending with port := { sel := 5, addr := 0 } })).map
      (fun t => (t.flags, t.port.addr, t.txPort)) = some (4, 1, some (txt "0|3|116|HELLO")) := by decide
theorem test_irq : State.irq { ending with cfg := { ending.cfg with irqEn := true }, flags := 1 } = true := by decide

/-! ## Witnesses: commands -/

/-- A state whose one waiting event is `e`. -/
def facing (s : State) (e : Event) : State := { s with inputs := [e] }

theorem witness_StepRunsTheCommandWritten :
    State.reset.inputs = [] ∧ (facing sender (commandWrite 0x01)).inputs = commandWrite 0x01 :: [] ∧
    decodeWord 0x01 = .ok .startSend ∧ Instr.startSend.wf = true := ⟨rfl, rfl, rfl, rfl⟩

theorem witness_RefusedCommandSetsCmdErrOnly_reserved :
    (facing sender (commandWrite 0x101)).inputs = commandWrite 0x101 :: [] ∧
    (0x101#32).extractLsb' 8 24 ≠ 0#24 := by decide
theorem witness_RefusedCommandSetsCmdErrOnly_unassigned :
    (facing sender (commandWrite 0x18)).inputs = commandWrite 0x18 :: [] ∧
    ∀ i : Instr, i.opcode ≠ (0x18#32).extractLsb' 0 8 := ⟨rfl, fun i => by cases i <;> decide⟩
theorem witness_RefusedCommandSetsCmdErrOnly_busy :
    (facing waiting (commandWrite 0x01)).inputs = commandWrite 0x01 :: [] ∧
    (facing waiting (commandWrite 0x01)).engine ≠ .idle ∧
    ∃ i : Instr, i ≠ .nop ∧ i ≠ .abort ∧ (0x01 : Word) = encode i :=
  ⟨rfl, by decide, .startSend, by decide, by decide, rfl⟩

theorem witness_AbortCancelsTheSession :
    sender.engine = .idle ∧ sending.engine = .sSend ∧ waiting.engine = .sWait ∧ ending.engine = .sEnd ∧
    listening.engine = .rListen ∧ acking.engine = .rAck := by decide

theorem witness_ClearEmptiesResultFlagsCounters :
    { State.reset with flags := 0x3FF }.engine = .idle ∧ waiting.engine ≠ .idle := by decide
theorem witness_EncAckCommand :
    State.reset.engine = .idle ∧ State.reset.scratch.ackOk = false ∧
    { State.reset with scratch := { State.reset.scratch with ackOk := true } }.scratch.ackOk = true ∧
    { State.reset with scratch := { State.reset.scratch with ackOk := true } }.engine = .idle := by decide
theorem witness_EncSentinelCommand : State.reset.engine = .idle := rfl

theorem witness_ChecksumCommand :
    overlong.engine = .idle ∧ overlong.scratch.fLen.toNat > overlong.params.maxMsg ∧
    { overlong with scratch := { overlong.scratch with fLen := 255 } }.scratch.fLen.toNat ≤ overlong.params.maxMsg := by
  decide

theorem witness_EncodeCommand_badArg :
    overlong.engine = .idle ∧ overlong.scratch.fLen.toNat > overlong.params.maxMsg := by decide
theorem witness_EncodeCommand_unsafe :
    (withFrame 0 1 0 [0x61, 0x7C] .text).engine = .idle ∧
    (withFrame 0 1 0 [0x61, 0x7C] .text).scratch.fLen.toNat ≤ 255 ∧
    (withFrame 0 1 0 [0x61, 0x7C] .text).cfg.coding = .text ∧
    ∃ b ∈ (withFrame 0 1 0 [0x61, 0x7C] .text).scratchFrame.data, ¬ SafeByte b := by decide
/-- A block whose messages hold 20 bytes: behind the longest header (16 bytes) 5 safe bytes are one too many, 4 are not. -/
def inTwenty (s : State) : State := { s with params := { maxMsg := 20, payloadBytes := 1024, maxChunks := 16 } }

theorem witness_EncodeCommand_tooLong :
    (inTwenty (withFrame 65535 65535 255 (txt "AAAAA") .text)).scratch.fLen.toNat ≤ 20 ∧
    (∀ b ∈ (inTwenty (withFrame 65535 65535 255 (txt "AAAAA") .text)).scratchFrame.data, SafeByte b) ∧
    (dec 65535 ++ [0x7C] ++ dec 65535 ++ [0x7C] ++ dec 255 ++ [0x7C] ++
      (inTwenty (withFrame 65535 65535 255 (txt "AAAAA") .text)).scratchFrame.data).length > 20 := by decide
theorem witness_EncodeCommand_fits :
    (∀ b ∈ (inTwenty (withFrame 65535 65535 255 (txt "AAAA") .text)).scratchFrame.data, SafeByte b) ∧
    (dec 65535 ++ [0x7C] ++ dec 65535 ++ [0x7C] ++ dec 255 ++ [0x7C] ++
      (inTwenty (withFrame 65535 65535 255 (txt "AAAA") .text)).scratchFrame.data).length ≤ 20 ∧
    (withFrame 0 1 0 [0x7C] .hex).cfg.coding = .hex := by decide

theorem decAux_ne_nil (fuel n : Nat) (x : Byte) (acc : List Byte) : decAux fuel n (x :: acc) ≠ [] := by
  induction fuel generalizing n x acc with
  | zero => simp [decAux]
  | succ f ih =>
    simp only [decAux]
    split
    · simp
    · exact ih _ _ _

/-- The empty field is no number. -/
theorem not_decimal_nil (maxv : Nat) : ¬ IsDecimal [] maxv := by
  rintro ⟨n, -, h⟩
  revert h
  simp only [dec, decAux]
  split
  · simp
  · exact (decAux_ne_nil _ _ _ _).symm

theorem witness_DecodeCommand :
    overlong.engine = .idle ∧ overlong.scratch.msgLen.toNat > overlong.params.maxMsg ∧
    (withMsg (txt "0|1|0|") .text).engine = .idle ∧ (withMsg (txt "0|1|0|") .text).scratch.msgLen.toNat ≤ 255 ∧
    (withMsg (txt "0|1|0|") .text).memRead .msg 0 6 = txt "0|1|0|" ∧
    CarriesFrame 255 (txt "0|1|0|") .text { chunkId := 0, totalChunks := 1, checksum := 0, data := [] } :=
  ⟨rfl, by decide, rfl, by decide, by decide, by decide, [], ⟨rfl, by decide⟩, by decide⟩
/-- Section 2.4: lower-case HEX digits are taken. -/
theorem witness_DecodeCommand_lower_case :
    CarriesFrame 255 (txt "1|3|0|abcd") .hex { chunkId := 1, totalChunks := 3, checksum := 0, data := [0xAB, 0xCD] } :=
  ⟨by decide, txt "abcd", show (txt "abcd").map upperHexDigit = hexSpelling [0xAB, 0xCD] by decide, by decide⟩
/-- Each detail of R114, on messages of section 2.4; a message of 10 bytes where 9 fit. -/
theorem witness_DecodeCommand_failures :
    FailsDecode 9 (txt "1|3|0|ABCD") .text 6 ∧ FailsDecode 255 (txt "2|3|77") .text 1 ∧
    FailsDecode 255 (txt "|3|77|ab") .text 2 ∧ FailsDecode 255 (txt "1||0|") .text 3 ∧
    FailsDecode 255 (txt "1|3||") .text 4 ∧ FailsDecode 255 (txt "1|3|0|a" ++ [0x7F]) .text 5 := by
  refine ⟨.inl (by decide), .inr (.inl (by decide)),
    .inr (.inr ⟨by decide, by decide, [], txt "3", txt "77", txt "ab", by decide, .inl ⟨not_decimal_nil _, rfl⟩⟩),
    .inr (.inr ⟨by decide, by decide, txt "1", [], txt "0", [], by decide,
      .inr (.inl ⟨⟨1, by decide, by decide⟩, not_decimal_nil _, rfl⟩)⟩),
    .inr (.inr ⟨by decide, by decide, txt "1", txt "3", [], [], by decide,
      .inr (.inr (.inl ⟨⟨1, by decide, by decide⟩, ⟨3, by decide, by decide⟩, not_decimal_nil _, rfl⟩))⟩),
    .inr (.inr ⟨by decide, by decide, txt "1", txt "3", txt "0", [0x61, 0x7F], by decide,
      .inr (.inr (.inr ⟨⟨1, by decide, by decide⟩, ⟨3, by decide, by decide⟩, ⟨0, by decide, by decide⟩, ?_, rfl⟩))⟩)⟩
  rintro x ⟨rfl, h⟩
  exact absurd (h 0x7F (by simp)) (by decide)

theorem witness_FragmentCommand_refused :
    (senderWith fun c => { c with chunkSize := 0 }).cfg.chunkSize.toNat = 0 ∧
    (senderWith fun c => { c with payloadLen := 0 }).cfg.payloadLen.toNat = 0 ∧
    (senderWith fun c => { c with payloadLen := 1025 }).cfg.payloadLen.toNat > Config.params.payloadBytes ∧
    huge.cfg.payloadLen.toNat ≤ huge.params.payloadBytes ∧ (65536 + 1 - 1) / 1 > 65535 ∧
    huge.cfg.chunkSize.toNat = 1 ∧ huge.cfg.payloadLen.toNat = 65536 ∧ huge.engine = .idle := by decide
/-- k one below n = 3 and at n; a chunk of 17 bytes in a block whose messages hold 16. -/
theorem witness_FragmentCommand_index :
    sender.engine = .idle ∧ sender.cfg.chunkSize.toNat = 5 ∧ sender.cfg.payloadLen.toNat = 12 ∧
    (12 + 5 - 1) / 5 = 3 ∧ 2 < 3 ∧ 3 ≥ 3 ∧ (sender.memRead .payload (2 * 5) (min ((2 + 1) * 5) 12 - 2 * 5)).length ≤ 255 ∧
    narrow.engine = .idle ∧ narrow.params.maxMsg = 16 ∧ (17 + 17 - 1) / 17 ≤ 65535 ∧ 0 < (17 + 17 - 1) / 17 ∧
    (narrow.memRead .payload (0 * 17) (min ((0 + 1) * 17) 17 - 0 * 17)).length > 16 := by
  refine ⟨rfl, rfl, rfl, rfl, by decide, by decide, by decide, rfl, rfl, by decide, by decide, ?_⟩
  rw [State.memRead_length]; decide

theorem witness_DecAckCommand :
    overlong.scratch.msgLen.toNat > overlong.params.maxMsg ∧ (withMsg (txt "ACK|2") .text).engine = .idle ∧
    (withMsg (txt "ACK|2") .text).scratchMsg = txt "ACK|2" ∧
    parseAck 255 (txt "ACK|2") = some (true, 2) ∧ parseAck 255 (txt "ERR|2") = some (false, 2) ∧
    parseAck 255 (txt "ACK|1") = some (true, 1) ∧ parseAck 255 (txt "ACK|02") = none := by decide

theorem witness_IsSentinelCommand :
    overlong.scratch.msgLen.toNat > overlong.params.maxMsg ∧ (withMsg (txt "END") .text).engine = .idle ∧
    (withMsg (txt "END") .text).memRead .msg 0 3 = [0x45, 0x4E, 0x44] ∧
    (withMsg (txt "EN") .text).memRead .msg 0 2 ≠ [0x45, 0x4E, 0x44] ∧ 3 ≤ Config.params.maxMsg := by decide

/-! ## Witnesses: the sender -/

theorem witness_StartSendReportsFirstFailingCheck_registers :
    sender.engine = .idle ∧ (senderWith fun c => { c with chunkSize := 0 }).cfg.chunkSize.toNat = 0 ∧
    sender.cfg.chunkSize.toNat ≠ 0 ∧ (senderWith fun c => { c with maxRetries := 0 }).cfg.maxRetries = 0 ∧
    sender.cfg.maxRetries ≠ 0 ∧ (senderWith fun c => { c with ackTimeout := 0 }).cfg.ackTimeout = 0 ∧
    sender.cfg.ackTimeout ≠ 0 ∧ (senderWith fun c => { c with payloadLen := 0 }).cfg.payloadLen.toNat = 0 ∧
    (senderWith fun c => { c with payloadLen := 1025 }).cfg.payloadLen.toNat > Config.params.payloadBytes ∧
    huge.cfg.chunkSize.toNat ≠ 0 ∧ huge.cfg.maxRetries ≠ 0 ∧ huge.cfg.ackTimeout ≠ 0 ∧
    huge.cfg.payloadLen.toNat ≤ huge.params.payloadBytes ∧
    (huge.cfg.payloadLen.toNat + huge.cfg.chunkSize.toNat - 1) / huge.cfg.chunkSize.toNat > 65535 := by decide
theorem witness_StartSendReportsFirstFailingCheck_payload :
    (∃ b ∈ State.memRead { sender with bufs := { sender.bufs with payload := Sparse.set 11 0x7F sender.bufs.payload } }
      .payload 0 12, ¬ SafeByte b) ∧
    (∀ b ∈ narrow.memRead .payload 0 12, SafeByte b) ∧ narrow.cfg.chunkSize.toNat = 5 ∧
    (∃ F ∈ fragment (({ narrow with cfg := { narrow.cfg with chunkSize := 12 } } : State).memRead .payload 0 12) 12,
      (frameBytes F .text).length > 16) := by decide

theorem witness_StartSendOffersFrameZero :
    sender.engine = .idle ∧ sender.cfg.chunkSize.toNat = 5 ∧ sender.cfg.payloadLen.toNat = 12 ∧
    (12 + 5 - 1) / 5 = 3 ∧ sender.cfg.maxRetries ≠ 0 ∧ sender.cfg.ackTimeout ≠ 0 ∧
    12 ≤ sender.params.payloadBytes ∧ 3 ≤ 65535 ∧ (∀ b ∈ sender.memRead .payload 0 12, SafeByte b) ∧
    (∀ F ∈ fragment (sender.memRead .payload 0 12) 5, (frameBytes F sender.cfg.coding).length ≤ sender.params.maxMsg) := by
  decide

theorem witness_TickCountsTheAckWait :
    sending.engine ≠ .sWait ∧ waiting.engine = .sWait ∧ 2 ≤ ({ waiting.tx with timer := 2 } : SenderRegs).timer.toNat ∧
    ({ waiting.tx with timer := 1 } : SenderRegs).timer = 1 := by decide
theorem witness_FrameTxDone : sending.engine = .sSend := by decide
theorem witness_MatchingAckAdvances :
    waiting.engine = .sWait ∧ waiting.params.wf = true ∧ waiting.tx.chunk + 1 ≠ waiting.tx.total ∧
    ({ waiting with tx := { waiting.tx with chunk := 2 } } : State).tx.chunk + 1 = waiting.tx.total := by decide
theorem witness_ErrAndStrayMessages :
    waiting.engine = .sWait ∧ waiting.params.wf = true ∧
    (∃ id ok, id ≠ waiting.tx.chunk ∧ txt "ACK|1" = ackMsg id ok) ∧ (∀ id ok, ([] : List Byte) ≠ ackMsg id ok) ∧
    waiting.cfg.strayPolicy = false ∧
    ({ waiting with cfg := { waiting.cfg with strayPolicy := true } } : State).cfg.strayPolicy = true :=
  ⟨by decide, by decide, ⟨1, true, by decide, by decide⟩,
    fun id ok => by cases ok <;> simp [ackMsg, ackToken], by decide, by decide⟩
theorem witness_SentinelTxDone : ending.engine = .sEnd := rfl

/-! ## Witnesses: the receiver -/

theorem witness_StartRecvBeginsEmpty :
    State.reset.engine = .idle ∧ State.reset.cfg.chunkSize = 0 ∧ receiver.engine = .idle ∧ receiver.cfg.chunkSize ≠ 0 ∧
    listening.engine ≠ .idle := by decide
theorem witness_FailedReceiveChangesNothing : waiting.engine = .sWait ∧ listening.engine = .rListen := by decide
theorem witness_MalformedMessageDropped :
    listening.engine = .rListen ∧ txt "END|" ≠ [0x45, 0x4E, 0x44] ∧
    FailsDecode listening.params.maxMsg (txt "END|") listening.cfg.coding 1 :=
  ⟨by decide, by decide, .inr (.inl (by decide))⟩
theorem witness_ChecksumMismatchNegativelyAcked :
    listening.engine = .rListen ∧
    CarriesFrame listening.params.maxMsg (txt "2|3|77|abcd") listening.cfg.coding
      { chunkId := 2, totalChunks := 3, checksum := 77, data := txt "abcd" } ∧
    checksum (txt "abcd") ≠ 77 := ⟨by decide, ⟨by decide, _, ⟨rfl, by decide⟩, by decide⟩, by decide⟩

theorem witness_RejectedFrameNegativelyAcked_range :
    CarriesFrame 255 (txt "3|3|65|A") .text (good 3 3 "A") ∧ checksum (txt "A") = (good 3 3 "A").checksum ∧
    (good 3 3 "A").chunkId.toNat ≥ (good 3 3 "A").totalChunks.toNat :=
  ⟨⟨by decide, _, ⟨rfl, by decide⟩, by decide⟩, rfl, by decide⟩
theorem witness_RejectedFrameNegativelyAcked_capacity :
    CarriesFrame 255 (txt "0|17|65|A") .text (good 0 17 "A") ∧
    (good 0 17 "A").chunkId.toNat < (good 0 17 "A").totalChunks.toNat ∧
    (good 0 17 "A").totalChunks.toNat > listening.params.maxChunks :=
  ⟨⟨by decide, _, ⟨rfl, by decide⟩, by decide⟩, by decide, by decide⟩
theorem witness_RejectedFrameNegativelyAcked_total :
    holding.engine = .rListen ∧ CarriesFrame 255 (txt "1|4|65|A") .text (good 1 4 "A") ∧
    (good 1 4 "A").totalChunks.toNat ≤ holding.params.maxChunks ∧ holding.rx.known = true ∧
    (good 1 4 "A").totalChunks ≠ holding.rx.total :=
  ⟨by decide, ⟨by decide, _, ⟨rfl, by decide⟩, by decide⟩, by decide, by decide, by decide⟩
theorem witness_RejectedFrameNegativelyAcked_oversize :
    CarriesFrame 255 (txt "0|3|69|AAAAA") .text (good 0 3 "AAAAA") ∧ listening.rx.known = false ∧
    (good 0 3 "AAAAA").data.length > listening.cfg.chunkSize.toNat :=
  ⟨⟨by decide, _, ⟨rfl, by decide⟩, by decide⟩, by decide, by decide⟩
/-- The largest total, the largest chunk; and an id one below the total in a session that knows it. -/
theorem witness_AcceptedFrameStored :
    listening.engine = .rListen ∧ CarriesFrame 255 (txt "0|16|4|AAAA") .text (good 0 16 "AAAA") ∧
    checksum (txt "AAAA") = (good 0 16 "AAAA").checksum ∧
    (good 0 16 "AAAA").totalChunks.toNat ≤ listening.params.maxChunks ∧ listening.rx.known = false ∧
    (good 0 16 "AAAA").data.length ≤ listening.cfg.chunkSize.toNat ∧
    holding.engine = .rListen ∧ CarriesFrame 255 (txt "2|3|67|C") .text (good 2 3 "C") ∧
    (good 2 3 "C").chunkId.toNat < (good 2 3 "C").totalChunks.toNat ∧ (good 2 3 "C").totalChunks = holding.rx.total :=
  ⟨by decide, ⟨by decide, _, ⟨rfl, by decide⟩, by decide⟩, rfl, by decide, by decide, by decide, by decide,
    ⟨by decide, _, ⟨rfl, by decide⟩, by decide⟩, by decide, by decide⟩
theorem witness_SentinelCompletes :
    listening.engine = .rListen ∧ listening.rx.known = false ∧ holding.engine = .rListen ∧ holding.rx.known = true ∧
    holding.rx.count ≠ holding.rx.total ∧
    (receiverRxDeliver .ok (txt "0|1|65|A") listening).rx.count =
      (receiverRxDeliver .ok (txt "0|1|65|A") listening).rx.total := by decide
theorem witness_SentinelCompletes_firstMissing :
    1 < holding.rx.total.toNat ∧ holding.valid 1 = false ∧ ∀ j, j < 1 → holding.valid j = true := by decide
theorem witness_AckTxDone :
    acking.engine = .rAck ∧ ({ Counters.zero with dup := 0xFFFF } : Counters).get .dup = 0xFFFF := by decide

/-! ## Witnesses: events and the host -/

theorem witness_EventsTakenExactlyWhereEnabled :
    waiting.engine = .sWait ∧ listening.engine = .rListen ∧ sending.engine = .sSend ∧ ending.engine = .sEnd ∧
    acking.engine = .rAck ∧ (State.reset.engine ≠ .sWait ∧ State.reset.engine ≠ .rListen) ∧
    (State.reset.engine ≠ .sSend ∧ State.reset.engine ≠ .sEnd ∧ State.reset.engine ≠ .rAck) := by decide
theorem witness_RefusedHostAccess :
    (0x02#8).toNat % 4 ≠ 0 ∧ (0x7C#8).toNat = 0x7C ∧ 0x98 ≤ (0x98#8).toNat ∧ (0x94#8).toNat = 0x94 := by decide
theorem witness_BusyWritesRefused :
    sending.engine ≠ .idle ∧ (0x18#8).toNat ∈ [0x08, 0x0C, 0x10, 0x14, 0x18] ∧ sending.port.sel = 0 := by decide
theorem witness_WritableRegistersReadBack :
    sender.engine = .idle ∧ ((0x18, 0xFFFFFF) : BitVec 8 × Word) ∈
      ([(0x08, 0x7), (0x0C, 0xFF), (0x10, 0xFF), (0x14, 0xFFFF), (0x18, 0xFFFFFF)] : List (BitVec 8 × Word)) ∧
    ((0x6C, 0xFFFFFF) : BitVec 8 × Word) ∈ ([(0x68, 0x7), (0x6C, 0xFFFFFF)] : List (BitVec 8 × Word)) := by decide
theorem witness_HostReadReturnsFields : HostReg.ofOffset 0x94 = some .cnt5 ∧ HostReg.cnt5 ≠ .bufData := by decide

/-- IDLE with the byte port at one place. -/
def port (s : State) (sel : BitVec 3) (a : BitVec 24) : State := { s with port := { sel := sel, addr := a } }

theorem witness_BytePortWrite :
    (port sender 0 1023).engine = .idle ∧ (port sender 0 1023).port.addr.toNat < sender.params.payloadBytes ∧
    (port sender 1 254).port.addr.toNat < sender.params.maxMsg ∧ (port sender 2 254).port.sel = 2 ∧
    (port sender 0 1024).port.addr.toNat ≥ sender.params.payloadBytes ∧ (port waiting 0 0).engine ≠ .idle ∧
    (port sender 1 255).port.addr.toNat ≥ sender.params.maxMsg ∧ 3 ≤ (port sender 3 0).port.sel.toNat := by decide
theorem witness_BytePortRead :
    6 ≤ (port sender 6 0).port.sel.toNat ∧ (port sender 0 1024).port.addr.toNat ≥ sender.params.payloadBytes ∧
    (port sender 5 255).port.addr.toNat ≥ sender.params.maxMsg ∧
    (port sender 3 4080).port.addr.toNat ≥ sender.params.maxChunks * 255 ∧
    (port sender 4 2).port.addr.toNat ≥ (sender.params.maxChunks + 7) / 8 ∧
    (port sender 4 1).port.addr.toNat < (sender.params.maxChunks + 7) / 8 ∧
    (port sender 3 4079).port.addr.toNat < sender.params.maxChunks * 255 ∧
    (port sender 3 4079).port.addr.toNat ≥ sender.rx.outLen.toNat ∧
    ({ receiver with rx := { receiver.rx with outLen := 3 } } : State).rx.outLen.toNat > (2#24).toNat := by decide

/-! ## Witnesses: rules over all steps -/

theorem witness_DoneRisesOnlyWithTerminalOutcome :
    step (facing ending (.txDone .ok)) = .next (sentinelTxDone .ok { ending with reply := none }) ∧
    (facing ending (.txDone .ok)).flags.getLsbD 0 = false ∧
    (sentinelTxDone .ok { ending with reply := none }).flags.getLsbD 0 = true := ⟨rfl, by decide, by decide⟩
theorem witness_EngineTransitions :
    step (facing listening (.rxDeliver .ok (txt "0|3|130|AA"))) = .next acking := rfl
theorem witness_ConfigurationFrozenWhileBusy :
    (facing waiting (.hostWrite 0x0C 7)).engine ≠ .idle ∧
    (facing waiting (.hostWrite 0x0C 7)).inputs.head? ≠ some .reset ∧
    step (facing waiting (.hostWrite 0x0C 7)) = .next waiting.hostError := ⟨by decide, by decide, rfl⟩
theorem witness_SessionEndsThroughFinish :
    (facing ending (.txDone .ok)).engine ≠ .idle ∧ (facing ending (.txDone .ok)).inputs.head? ≠ some .reset ∧
    step (facing ending (.txDone .ok)) = .next (sentinelTxDone .ok ending) ∧
    (sentinelTxDone .ok ending).engine = .idle := ⟨by decide, by decide, rfl, rfl⟩
theorem witness_ErrorFlagsStayUntilCleared :
    step (facing { sender with flags := 6 } (.hostWrite 0x24 2)) = .next { sender with flags := 4 } ∧
    (6#10).getLsbD 1 = true ∧ (4#10).getLsbD 1 = false ∧
    step (facing { sender with flags := 6 } (commandWrite 4)) = .next { sender with flags := 0 } ∧
    (6#10).getLsbD 2 = true ∧ (0#10).getLsbD 2 = false := ⟨rfl, by decide, by decide, rfl, by decide, by decide⟩
theorem witness_IdleChangesOnlyByHostOrReset :
    sender.engine = .idle ∧ (facing sender .tick).inputs = .tick :: [] ∧ Event.tick ≠ .reset ∧
    (∀ off v, Event.tick ≠ .hostWrite off v) ∧ (∀ off, Event.tick ≠ .hostRead off) ∧
    step (facing sender .tick) = .next sender :=
  ⟨rfl, rfl, by decide, by simp, by simp, rfl⟩
theorem witness_SenderAdvancesOnlyOnAwaitedAck :
    (facing waiting (.rxDeliver .ok (txt "ACK|0"))).inSenderSession ∧
    (facing waiting (.rxDeliver .ok (txt "ACK|0"))).inputs.head? ≠ some .reset ∧
    step (facing waiting (.rxDeliver .ok (txt "ACK|0"))) = .next (senderRxDeliver .ok (txt "ACK|0") waiting) ∧
    (senderRxDeliver .ok (txt "ACK|0") waiting).tx.chunk ≠ waiting.tx.chunk :=
  ⟨.inr (.inl rfl), by decide, rfl, by decide⟩
theorem witness_SlotsHoldOnlyCheckedFrames :
    step (facing listening (.rxDeliver .ok (txt "0|3|130|AA"))) = .next acking ∧ acking.valid 0 = true ∧
    (facing listening (.rxDeliver .ok (txt "0|3|130|AA"))).valid 0 = false := ⟨rfl, by decide, by decide⟩

/-! ## Witnesses: the pure functions -/

theorem witness_MatcherMatchesExactlyAwaitedAck : (16 : Nat) ≤ 16 := by decide
theorem witness_ChecksumDetectsOneByteChange : (0x41 : Byte) ≠ 0x42 := by decide
theorem witness_DecodeOfEncodeIsTheFrame :
    encodeFrame 255 { chunkId := 0, totalChunks := 1, checksum := 123, data := [0x00, 0xFF, 0x7C] } .hex =
      .ok (txt "0|1|123|00FF7C") := rfl
theorem witness_EncodeOfDecodeIsTheMessage :
    decodeFrame 255 (txt "2|3|77|abcd") .text =
      .ok { chunkId := 2, totalChunks := 3, checksum := 77, data := txt "abcd" } ∧
    decodeFrame 255 (txt "1|3|0|abcd") .hex =
      .ok { chunkId := 1, totalChunks := 3, checksum := 0, data := [0xAB, 0xCD] } := ⟨rfl, rfl⟩
theorem witness_FragmentsPutThePayloadTogether :
    1 ≤ (txt "HELLO WORLD!").length ∧ 1 ≤ 5 ∧ 3 = ((txt "HELLO WORLD!").length + 5 - 1) / 5 ∧ 3 ≤ 65535 ∧
    (fragment (txt "HELLO WORLD!") 5)[2]? = some (good 2 3 "D!") := by decide
theorem witness_MessageKindsAndLengths :
    encodeFrame 255 (good 1 3 " WORL") .text = .ok (txt "1|3|100| WORL") := rfl
theorem witness_ValidatedTransferAlwaysEncodes :
    sending.validateSend = 0 ∧
    sending.tx.total.toNat = chunkCount sending.cfg.payloadLen.toNat sending.cfg.chunkSize.toNat ∧
    (2#16).toNat < sending.tx.total.toNat := by decide

/-! ## Witnesses: invariants and whole transfers -/

theorem valid_holding {i : Nat} (h : holding.valid i = true) : i = 0 := by
  have hs : holding.slots = [(0, txt "AA")] := by decide
  simp only [State.valid, hs, Sparse.get?_cons, Sparse.get?_nil] at h
  split at h
  · rename_i h0; exact h0.symm
  · cases h

theorem slotData_holding (i : Nat) : (holding.slotData i).length ≤ 2 := by
  have hs : holding.slots = [(0, txt "AA")] := by decide
  simp only [State.slotData, hs, Sparse.get?_cons, Sparse.get?_nil]
  split <;> decide

theorem written_of_keys {s : State} (h : ∀ b ∈ [Buffer.payload, .msg, .data, .out, .txmsg],
    ∀ k ∈ (s.bufs.get b).map Prod.fst, k < s.capacity b) (b : Buffer) (a : Nat)
    (ha : (Sparse.get? a (s.bufs.get b)).isSome = true) : a < s.capacity b :=
  h b (by cases b <;> simp) a ((Sparse.get?_isSome a _).mp ha)

/-- A receive session that holds a chunk satisfies the invariants. -/
theorem holding_inv : Inv holding where
  params := by decide
  memory b := by cases b <;> decide
  slots := by decide
  count := by decide
  validKnown i h := by have := valid_holding h; subst this; decide
  totalFits := by decide
  slotFits i := le_trans (slotData_holding i) (by decide)
  slotChunk _ i := le_trans (slotData_holding i) (by decide)
  sending h := by rcases h with h | h <;> exact absurd h (by decide)
  ending h := absurd h (by decide)
  timerRuns h := absurd rfl h
  timerBound h := absurd h (by decide)
  outLen _ := by decide
  expectKnown _ := by decide
  expectUnknown h := absurd h (by decide)
  validated h := by rcases h with h | h | h <;> exact absurd h (by decide)

/-- A send session that waits for an acknowledgement satisfies the invariants. -/
theorem waiting_inv : Inv waiting where
  params := by decide
  memory b := by cases b <;> decide
  slots := by decide
  count := by decide
  validKnown i h := by cases h
  totalFits := by decide
  slotFits i := by exact Nat.zero_le _
  slotChunk _ i := by exact Nat.zero_le _
  sending _ := by decide
  ending h := absurd h (by decide)
  timerRuns _ := rfl
  timerBound _ := by decide
  outLen h := by rcases h with h | h <;> exact absurd h (by decide)
  expectKnown h := absurd h (by decide)
  expectUnknown _ := by decide
  validated _ := by decide

theorem waiting_capacity : WithinCapacity waiting where
  written := written_of_keys (by decide)
  offered := by decide
  assembled := by decide

/-- The two blocks of a transfer, before it. -/
theorem idle_inv (s : State) (hp : s.params.wf = true) (hm : ∀ b, Memory.wf (s.bufs.get b)) (he : s.engine = .idle)
    (hs : s.slots = []) (ht : s.tx.timer = 0)
    (hr : s.rx.count = 0 ∧ s.rx.known = false ∧ s.rx.expect = 0 ∧ s.rx.total = 0) : Inv s where
  params := hp
  memory := hm
  slots := by rw [hs]; exact List.Pairwise.nil
  count := by rw [hs, hr.1]; rfl
  validKnown i h := by simp [State.valid, hs] at h
  totalFits := by rw [hr.2.2.2]; exact Nat.zero_le _
  slotFits i := by simp [State.slotData, hs]
  slotChunk _ i := by simp [State.slotData, hs]
  sending h := by rw [he] at h; rcases h with h | h <;> cases h
  ending h := by rw [he] at h; cases h
  timerRuns h := absurd ht h
  timerBound h := by rw [he] at h; cases h
  outLen h := by rcases h with h | h <;> rw [he] at h <;> cases h
  expectKnown h := by rw [hr.2.1] at h; cases h
  expectUnknown _ := hr.2.2
  validated h := by rcases h with h | h | h <;> rw [he] at h <;> cases h

theorem witness_DuplicateDeliveryIdempotent :
    Inv holding ∧ holding.engine = .rListen ∧
    CarriesFrame holding.params.maxMsg (txt "2|3|67|C") holding.cfg.coding (good 2 3 "C") ∧
    checksum (good 2 3 "C").data = (good 2 3 "C").checksum ∧ holding.acceptCheck (good 2 3 "C") = none ∧
    ∃ t u, holding.performAll [.rxDeliver .ok (txt "2|3|67|C"), .txDone .ok] = some t ∧
      t.performAll [.rxDeliver .ok (txt "2|3|67|C"), .txDone .fail] = some u :=
  ⟨holding_inv, by decide, ⟨by decide, _, ⟨rfl, by decide⟩, by decide⟩, rfl, by decide, _, _, rfl, rfl⟩

theorem witness_InvariantsHoldAtReset : Config.params.wf = true := by decide

theorem facing_inv {s : State} (e : Event) (h : Inv s) : Inv (facing s e) := { h with }

theorem witness_StepKeepsInvariants :
    Inv (facing holding (.rxDeliver .ok (txt "2|3|67|C"))) ∧
    step (facing holding (.rxDeliver .ok (txt "2|3|67|C"))) =
      .next (receiverRxDeliver .ok (txt "2|3|67|C") holding) ∧
    Inv (facing waiting (.rxDeliver .ok (txt "ACK|0"))) ∧
    step (facing waiting (.rxDeliver .ok (txt "ACK|0"))) = .next (senderRxDeliver .ok (txt "ACK|0") waiting) :=
  ⟨facing_inv _ holding_inv, rfl, facing_inv _ waiting_inv, rfl⟩
theorem witness_StepStaysWithinCapacity :
    Inv (facing waiting (.rxDeliver .ok (txt "ACK|0"))) ∧
    WithinCapacity (facing waiting (.rxDeliver .ok (txt "ACK|0"))) ∧
    step (facing waiting (.rxDeliver .ok (txt "ACK|0"))) = .next (senderRxDeliver .ok (txt "ACK|0") waiting) :=
  ⟨facing_inv _ waiting_inv, { waiting_capacity with }, rfl⟩

theorem witness_InOrderTransferReassembles :
    listening.params.wf = true ∧ listening.engine = .rListen ∧ listening.slots = [] ∧ listening.rx.known = false ∧
    listening.rx.count = 0 ∧ 1 ≤ (txt "HELLO!").length ∧ (txt "HELLO!").length < 2 ^ 24 ∧
    4 ≤ listening.cfg.chunkSize.toNat ∧ ((txt "HELLO!").length + 4 - 1) / 4 ≤ listening.params.maxChunks ∧
    [[Status.ok, .fail], [.ok]].length = (fragment (txt "HELLO!") 4).length ∧
    (∀ sts ∈ [[Status.ok, .fail], [.ok]], sts ≠ []) ∧
    ∀ F ∈ fragment (txt "HELLO!") 4, ∃ m, encodeFrame listening.params.maxMsg F listening.cfg.coding = .ok m := by
  refine ⟨by decide, by decide, by decide, by decide, by decide, by decide, by decide, by decide, by decide, by decide,
    by decide, ?_⟩
  intro F hF
  have h : F = good 0 2 "HELL" ∨ F = good 1 2 "O!" := by
    have hf : fragment (txt "HELLO!") 4 = [good 0 2 "HELL", good 1 2 "O!"] := by decide
    rw [hf] at hF; simpa using hF
  rcases h with rfl | rfl <;> exact ⟨_, rfl⟩

/-- The two blocks of program P2 and a receiver with room for its chunks. -/
def listener : State := { State.reset with cfg := { State.reset.cfg with chunkSize := 5 } }

/-- One frame over the link, delivered twice, and its first acknowledgement; the second is lost. -/
def oneFrame : List LinkMove :=
  [.take .a, .duplicate .b 0, .deliver .b 0, .take .b, .deliver .b 0, .take .b, .lose .a 1, .deliver .a 0]

theorem witness_TwoBlockTransferDelivers :
    Inv sender ∧ Inv listener ∧ sender.engine = .idle ∧ listener.engine = .idle ∧ sender.validateSend = 0 ∧
    listener.cfg.chunkSize ≠ 0 ∧ exec .startSend sender = .next sending ∧
    exec .startRecv listener = .next (runStartRecv listener) ∧ sender.cfg.coding = listener.cfg.coding ∧
    sender.cfg.chunkSize.toNat ≤ listener.cfg.chunkSize.toNat ∧
    chunkCount sender.cfg.payloadLen.toNat sender.cfg.chunkSize.toNat ≤ listener.params.maxChunks ∧
    (∀ m ∈ oneFrame ++ oneFrame ++ oneFrame ++ [.take .a, .deliver .b 0], m.faithful = true) ∧
    (({ a := sending, b := runStartRecv listener, toA := [], toB := [] } : System).run
        (oneFrame ++ oneFrame ++ oneFrame ++ [.take .a, .deliver .b 0])).map
      (fun y => (y.a.result.code, y.b.engine)) = some (.sendSuccess, .idle) := by
  refine ⟨idle_inv _ (by decide) (fun b => by cases b <;> decide) rfl rfl rfl ⟨rfl, rfl, rfl, rfl⟩,
    idle_inv _ (by decide) (fun b => by cases b <;> decide) rfl rfl rfl ⟨rfl, rfl, rfl, rfl⟩,
    rfl, rfl, by decide, by decide, rfl, rfl, rfl, by decide, by decide, by decide, by decide +kernel⟩

end Sys2Proof.Tests
end

