-- ==== Sys2Proof/Proofs/EnabledEvents.lean ====
section
/-! PROOFS. Where the transport's events are taken and by which unit (spec/00_scope.md R10, spec/42_sender.md R180). -/

namespace Sys2Proof.Machine

/-! ## Where the transport's events are taken (R10) -/

section Enabled
variable {s : State}

theorem perform_rxDeliver_sWait (h : s.engine = .sWait) (st : Status) (m : List Byte) :
    perform (.rxDeliver st m) s = .next (senderRxDeliver st m s) := by
  simp [perform, rxDeliver, h]

theorem perform_rxDeliver_rListen (h : s.engine = .rListen) (st : Status) (m : List Byte) :
    perform (.rxDeliver st m) s = .next (receiverRxDeliver st m s) := by
  simp [perform, rxDeliver, h]

theorem perform_rxDeliver_fault (h : s.engine.receiveReady = false) (st : Status) (m : List Byte) :
    perform (.rxDeliver st m) s = .fault .rxDeliverNotEnabled := by
  cases he : s.engine <;> simp_all [perform, rxDeliver, EngineState.receiveReady]

theorem perform_txDone_ok_sSend (h : s.engine = .sSend) : perform (.txDone .ok) s = .next (senderTxDoneOk s) := by
  simp [perform, txDone, h]

theorem perform_txDone_fail_sSend (h : s.engine = .sSend) :
    perform (.txDone .fail) s = .next (senderTxDoneFail s) := by
  simp [perform, txDone, h]

theorem perform_txDone_sEnd (h : s.engine = .sEnd) (st : Status) :
    perform (.txDone st) s = .next (sentinelTxDone st s) := by
  simp [perform, txDone, h]

theorem perform_txDone_rAck (h : s.engine = .rAck) (st : Status) :
    perform (.txDone st) s = .next (receiverTxDone st s) := by
  simp [perform, txDone, h]

theorem perform_txDone_fault (h : s.engine.offering = false) (st : Status) :
    perform (.txDone st) s = .fault .txDoneNotEnabled := by
  cases he : s.engine <;> simp_all [perform, txDone, EngineState.offering]

end Enabled

/-- Settles O24: the receive-ready state says which unit takes the event, and both leave the state on FAIL. -/
theorem failedReceiveChangesNothing : Obligations.FailedReceiveChangesNothing := by
  unfold Obligations.FailedReceiveChangesNothing
  rintro s m (h | h)
  · exact perform_rxDeliver_sWait h .fail m
  · exact perform_rxDeliver_rListen h .fail m

/-- Settles O31, one rule per enabling state and one for all others. -/
theorem eventsTakenExactlyWhereEnabled : Obligations.EventsTakenExactlyWhereEnabled := by
  unfold Obligations.EventsTakenExactlyWhereEnabled
  intro s st m
  refine ⟨?_, fun h1 h2 => perform_rxDeliver_fault ?_ st m, ?_, fun h1 h2 h3 => perform_txDone_fault ?_ st⟩
  · rintro (h | h)
    · exact ⟨_, perform_rxDeliver_sWait h st m⟩
    · exact ⟨_, perform_rxDeliver_rListen h st m⟩
  · cases he : s.engine <;> simp_all [EngineState.receiveReady]
  · rintro (h | h | h)
    · cases st with
      | ok => exact ⟨_, perform_txDone_ok_sSend h⟩
      | fail => exact ⟨_, perform_txDone_fail_sSend h⟩
    · exact ⟨_, perform_txDone_sEnd h st⟩
    · exact ⟨_, perform_txDone_rAck h st⟩
  · cases he : s.engine <;> simp_all [EngineState.offering]

end Sys2Proof.Machine
end

