-- ==== Sys2Proof/Proofs/MessageLengths.lean ====
section
/-! SUPPORT. How long the byte strings are that the block writes: decimals and acknowledgements (spec/30_encoding.md
R86, R89), decoded data (spec/40_codec.md R114), the frames of a validated transfer (spec/42_sender.md R161, R163) and the
assembled payload (spec/43_receiver.md R215). -/

namespace Sys2Proof.Machine

/-- The smallest transport message (spec/00_scope.md R12). -/
theorem Params.sixteen_le_maxMsg {p : Params} (h : p.wf = true) : 16 ≤ p.maxMsg := by
  simp only [Params.wf, Bool.and_eq_true, decide_eq_true_eq] at h
  omega

/-! ## Decimals, acknowledgements and the sentinel -/

theorem decAux_length_le (fuel : Nat) {n k : Nat} (hn : n < 10 ^ k) (acc : List Byte) :
    (decAux fuel n acc).length ≤ max k 1 + acc.length := by
  induction fuel generalizing n k acc with
  | zero => simp [decAux]
  | succ fuel ih =>
    rw [decAux]
    split
    · simp only [List.length_cons]; omega
    · cases k with
      | zero => omega
      | succ k =>
        have hdiv : n / 10 < 10 ^ k := by omega
        have hk : k ≠ 0 := by rintro rfl; omega
        have := ih hdiv (digitByte (n % 10) :: acc)
        simp only [List.length_cons] at this
        omega

/-- A number below `10 ^ k` has at most `k` digits. -/
theorem dec_length_le {n k : Nat} (hk : 1 ≤ k) (hn : n < 10 ^ k) : (dec n).length ≤ k := by
  simpa [dec, Nat.max_eq_left hk] using decAux_length_le (n + 1) hn []

theorem ackToken_length (ok : Bool) : (ackToken ok).length = 3 := by cases ok <;> rfl

theorem ackMsg_length_le (id : BitVec 16) (ok : Bool) : (ackMsg id ok).length ≤ 9 := by
  have := dec_length_le (n := id.toNat) (k := 5) (by decide) (by omega)
  simp only [ackMsg, List.length_append, ackToken_length, List.length_singleton]
  omega

/-! ## Decoded data -/

theorem length_le_of_mem_split {c : Byte} {m f : List Byte} (h : f ∈ split c m) : f.length ≤ m.length := by
  induction m generalizing f with
  | nil => simp_all [split]
  | cons b t ih =>
    simp only [split] at h
    split at h
    · rcases List.mem_cons.mp h with rfl | h
      · simp
      · exact (ih h).trans (Nat.le_succ _)
    · cases hs : split c t with
      | nil => exact absurd hs (split_ne_nil c t)
      | cons p ps =>
        rw [hs] at h ih
        rcases List.mem_cons.mp h with rfl | h
        · simpa using ih List.mem_cons_self
        · exact (ih (List.mem_cons_of_mem _ h)).trans (Nat.le_succ _)

theorem uncodedHex_length_le {f d : List Byte} (h : uncodedHex f = some d) : d.length ≤ f.length := by
  induction f using uncodedHex.induct generalizing d with
  | case1 => simp_all [uncodedHex]
  | case2 b => simp [uncodedHex] at h
  | case3 hi lo t a b d' ht hhi hlo ih =>
    simp only [uncodedHex, hhi, hlo, ht, Option.some.injEq] at h
    subst h
    have := ih ht
    simp only [List.length_cons]
    omega
  | case4 hi lo t hnone => simp_all [uncodedHex]

/-- A data field carries no more bytes than it has. -/
theorem uncoded_length_le {c : Coding} {f d : List Byte} (h : uncoded c f = some d) : d.length ≤ f.length := by
  cases c with
  | text =>
    simp only [uncoded] at h
    split at h
    · cases h; exact le_rfl
    · cases h
  | hex => exact uncodedHex_length_le h

theorem decodeFields_data {f1 f2 f3 f4 : List Byte} {c : Coding} {F : Frame}
    (h : decodeFields f1 f2 f3 f4 c = .ok F) : uncoded c f4 = some F.data := by
  unfold decodeFields at h
  split at h
  · cases h
  · split at h
    · cases h
    · split at h
      · cases h
      · split at h
        · cases h
        · rename_i hd
          cases h
          exact hd

/-- A message that decodes fits the transport, and its data is no longer than the message. -/
theorem decodeFrame_length_le {P : Nat} {m : List Byte} {c : Coding} {F : Frame} (h : decodeFrame P m c = .ok F) :
    m.length ≤ P ∧ F.data.length ≤ m.length := by
  unfold decodeFrame at h
  split at h
  · cases h
  · rename_i hlen
    split at h
    · cases h
    · split at h
      · rename_i f1 f2 f3 f4 hsplit
        have hmem : f4 ∈ split bar m := by simp [hsplit]
        exact ⟨not_lt.mp hlen, (uncoded_length_le (decodeFields_data h)).trans (length_le_of_mem_split hmem)⟩
      · cases h

/-- A message the encoder answers fits the transport (R113). -/
theorem encodeFrame_length_le {P : Nat} {F : Frame} {c : Coding} {m : List Byte} (h : encodeFrame P F c = .ok m) :
    m.length ≤ P := by
  unfold encodeFrame at h
  split at h
  · cases h
  · split at h
    · cases h
    · rename_i hlen
      cases h
      exact not_lt.mp hlen

/-! ## The frames of a validated transfer -/

/-- One check of a chain that answers the first failing check's detail, or 0. -/
theorem firstFailing_eq_zero {c : Prop} [Decidable c] {d r : BitVec 8} (hd : d ≠ 0) :
    (if c then d else r) = 0 ↔ ¬ c ∧ r = 0 := by
  by_cases h : c
  · simpa [h] using hd
  · simp [h]

/-- What the checks of R161 establish when none fails. -/
theorem State.validateSend_eq_zero (s : State) :
    s.validateSend = 0 ↔
      s.cfg.chunkSize.toNat ≠ 0 ∧ s.cfg.maxRetries ≠ 0 ∧ s.cfg.ackTimeout ≠ 0 ∧ s.cfg.payloadLen.toNat ≠ 0 ∧
      s.cfg.payloadLen.toNat ≤ s.params.payloadBytes ∧
      chunkCount s.cfg.payloadLen.toNat s.cfg.chunkSize.toNat ≤ 65535 ∧
      (s.cfg.coding = .text → (s.memRead .payload 0 s.cfg.payloadLen.toNat).all isSafe = true) ∧
      ∀ F ∈ fragment (s.memRead .payload 0 s.cfg.payloadLen.toNat) s.cfg.chunkSize.toNat,
        (frameMsg F s.cfg.coding).length ≤ s.params.maxMsg := by
  simp (disch := decide) only [State.validateSend, firstFailing_eq_zero]
  simp

theorem chunkCount_pos {len S : Nat} (hS : S ≠ 0) (hlen : len ≠ 0) : 0 < chunkCount len S :=
  Nat.div_pos (by omega) (by omega)

theorem State.memRead_getElem?_ite (s : State) (b : Buffer) (a n i : Nat) :
    (s.memRead b a n)[i]? = if i < n then some (s.byteAt b (a + i)) else none := by
  split
  · rename_i h
    exact s.memRead_getElem? b a n i h
  · rename_i h
    exact List.getElem?_eq_none (by simpa using h)

/-- The chunk read from `PAYLOAD` is that of the payload as one string. -/
theorem State.payloadChunk_eq_chunkOf (s : State) (k : Nat) :
    s.payloadChunk k = chunkOf (s.memRead .payload 0 s.cfg.payloadLen.toNat) s.cfg.chunkSize.toNat k := by
  apply List.ext_getElem?
  intro i
  have hmul : (k + 1) * s.cfg.chunkSize.toNat = k * s.cfg.chunkSize.toNat + s.cfg.chunkSize.toNat := by ring
  have hcut : i < min ((k + 1) * s.cfg.chunkSize.toNat) s.cfg.payloadLen.toNat - k * s.cfg.chunkSize.toNat ↔
      i < s.cfg.chunkSize.toNat ∧ k * s.cfg.chunkSize.toNat + i < s.cfg.payloadLen.toNat := by
    rw [hmul]; omega
  simp only [State.payloadChunk, chunkOf, List.getElem?_take, List.getElem?_drop, State.memRead_getElem?_ite, hcut,
    ite_and, Nat.zero_add]

/-- Entry `k` of the fragments is frame `k`. -/
theorem fragment_getElem? {P : List Byte} {S k : Nat} (h : k < chunkCount P.length S) :
    (fragment P S)[k]? = some (makeFrame k (chunkCount P.length S) (chunkOf P S k)) := by
  simp [fragment, h]

/-- The frame the sender offers for a chunk is that of `fragment`. -/
theorem State.fragment_getElem?_sendFrame {s : State} {k : BitVec 16}
    (ht : s.tx.total.toNat = chunkCount s.cfg.payloadLen.toNat s.cfg.chunkSize.toNat)
    (hk : k.toNat < s.tx.total.toNat) :
    (fragment (s.memRead .payload 0 s.cfg.payloadLen.toNat) s.cfg.chunkSize.toNat)[k.toNat]? =
      some (s.sendFrame k) := by
  rw [fragment_getElem? (by simpa [← ht] using hk)]
  simp [State.sendFrame, makeFrame, State.payloadChunk_eq_chunkOf, ← ht]

/-- The message `offer_frame(k)` offers fits the transport. -/
def State.FrameFits (s : State) (k : BitVec 16) : Prop :=
  (frameMsg (s.sendFrame k) s.cfg.coding).length ≤ s.params.maxMsg

/-- R161: every frame of a validated transfer fits. -/
theorem State.frameFits_of_validated {s : State} {k : BitVec 16} (hv : s.validateSend = 0)
    (ht : s.tx.total.toNat = chunkCount s.cfg.payloadLen.toNat s.cfg.chunkSize.toNat)
    (hk : k.toNat < s.tx.total.toNat) : s.FrameFits k := by
  obtain ⟨-, -, -, -, -, -, -, hfits⟩ := s.validateSend_eq_zero.mp hv
  exact hfits _ (List.mem_of_getElem? (State.fragment_getElem?_sendFrame ht hk))

/-! ## The assembled payload -/

theorem State.assemble_length_le {s : State} {B : Nat} (h : ∀ i, (s.slotData i).length ≤ B) (n : Nat) :
    (s.assemble n).length ≤ n * B := by
  induction n with
  | zero => simp [State.assemble]
  | succ n ih =>
    have := h n
    simp only [State.assemble, List.range_succ, List.flatMap_append, List.length_append, List.flatMap_singleton] at ih ⊢
    rw [Nat.succ_mul]
    omega

end Sys2Proof.Machine
end

