-- ==== Sys2Proof/Proofs/Capacity.lean ====
section
/-! PROOFS. "Neither primitive ever goes past the buffer's capacity" (spec/00_scope.md R16). One rule per operation that
writes a buffer, and one, `WithinCapacity.congr`, for all that leave the buffers, `TX_LEN` and `OUT_LEN`; then the
commands, the host port and the events, each a use of these rules. -/

namespace Sys2Proof.Machine

variable {s t : State}

/-! ## The operations on the state -/

/-- Capacity speaks of the parameters, the buffers, `TX_LEN` and `OUT_LEN` alone. -/
theorem WithinCapacity.congr (h : WithinCapacity s)
    (hsame : (t.params, t.bufs, t.txLen, t.rx.outLen) = (s.params, s.bufs, s.txLen, s.rx.outLen)) :
    WithinCapacity t := by
  simp only [Prod.mk.injEq] at hsame
  obtain ⟨hparams, hbufs, htx, hout⟩ := hsame
  have hcap : ∀ b, t.capacity b = s.capacity b := fun b => by cases b <;> simp only [State.capacity, hparams]
  exact
    { written := fun b a ha => by rw [hbufs] at ha; rw [hcap]; exact h.written b a ha
      offered := by rw [htx, hparams]; exact h.offered
      assembled := by rw [hout, hcap]; exact h.assembled }

/-- The addresses written after a string of bytes was written from address `a` on. -/
theorem Memory.isSome_get?_writeAll {j a : Nat} {x : List Byte} {m : Memory}
    (h : (Sparse.get? j (Memory.writeAll a x m)).isSome = true) :
    j < a + x.length ∨ (Sparse.get? j m).isSome = true := by
  rw [Memory.get?_writeAll] at h
  split at h
  · rw [Option.isSome_or, Bool.or_eq_true] at h
    refine h.imp_left fun hx => ?_
    obtain ⟨hlt, -⟩ := List.getElem?_eq_some_iff.mp (Option.eq_some_of_isSome hx)
    omega
  · exact .inr h

theorem WithinCapacity.memWrite {b : Buffer} {a : Nat} {x : List Byte} (h : WithinCapacity s)
    (hfit : a + x.length ≤ s.capacity b) : WithinCapacity (s.memWrite b a x) where
  written b' j hj := by
    show j < s.capacity b'
    rw [State.memWrite_bufs] at hj
    by_cases hb : b' = b
    · subst hb
      rw [Buffers.get_put_same] at hj
      rcases Memory.isSome_get?_writeAll hj with hj | hj
      · omega
      · exact h.written b' j hj
    · rw [Buffers.get_put_other hb] at hj
      exact h.written b' j hj
  offered := h.offered
  assembled := h.assembled

/-- R17: an offer stays within `TXMSG` when the message fits the transport. -/
theorem WithinCapacity.offer {m : List Byte} (h : WithinCapacity s) (hm : m.length ≤ s.params.maxMsg) :
    WithinCapacity (s.offer m) where
  written := (h.memWrite (b := .txmsg) (a := 0) (x := m) (by simpa [State.capacity] using hm)).written
  offered := by
    rw [State.offer_txLen, BitVec.toNat_ofNat]
    exact (Nat.mod_le _ _).trans hm
  assembled := h.assembled

theorem WithinCapacity.goto {e : EngineState} (h : WithinCapacity s) : WithinCapacity (s.goto e) := h.congr rfl

theorem WithinCapacity.finish {code : ResultCode} {detail : BitVec 8} (h : WithinCapacity s) :
    WithinCapacity (s.finish code detail) := h.congr rfl

theorem WithinCapacity.setOutLen {n : Nat} (h : WithinCapacity s) (hn : n ≤ s.capacity .out) :
    WithinCapacity { s with rx := { s.rx with outLen := BitVec.ofNat 24 n } } where
  written := h.written
  offered := h.offered
  assembled := by
    rw [BitVec.toNat_ofNat]
    exact (Nat.mod_le _ _).trans hn

theorem WithinCapacity.cntInc {c : Counter} (h : WithinCapacity s) : WithinCapacity (s.cntInc c) := h.congr rfl

theorem WithinCapacity.writeSlot {i : BitVec 16} {d : List Byte} (h : WithinCapacity s) :
    WithinCapacity (s.writeSlot i d) := h.congr rfl

theorem WithinCapacity.setRxLast {e : RxEvent} {d : BitVec 8} {i : BitVec 16} (h : WithinCapacity s) :
    WithinCapacity (s.setRxLast e d i) := h.congr rfl

theorem WithinCapacity.setMissing {f c : BitVec 16} (h : WithinCapacity s) : WithinCapacity (s.setMissing f c) :=
  h.congr rfl

theorem WithinCapacity.offerAck {id : BitVec 16} {ok : Bool} (h : WithinCapacity s) (hp : 16 ≤ s.params.maxMsg) :
    WithinCapacity (s.offer (ackMsg id ok)) :=
  h.offer ((ackMsg_length_le id ok).trans (by omega))

theorem WithinCapacity.writeMsg {m : List Byte} (h : WithinCapacity s) (hm : m.length ≤ s.params.maxMsg) :
    WithinCapacity (s.writeMsg m) :=
  (h.memWrite (b := .msg) (a := 0) (x := m) (by simpa [State.capacity] using hm)).congr rfl

theorem WithinCapacity.writeDecoded {F : Frame} (h : WithinCapacity s) (hF : F.data.length ≤ s.params.maxMsg) :
    WithinCapacity (s.writeDecoded F) :=
  (h.memWrite (b := .data) (a := 0) (x := F.data) (by simpa [State.capacity] using hF)).congr rfl

theorem WithinCapacity.writeFragment {d : List Byte} (h : WithinCapacity s) (n : Nat)
    (hd : d.length ≤ s.params.maxMsg) : WithinCapacity (s.writeFragment n d) :=
  (h.memWrite (b := .data) (a := 0) (x := d) (by simpa [State.capacity] using hd)).congr rfl

/-! ## The codec and acknowledgement commands -/

theorem WithinCapacity.runChecksum (h : WithinCapacity s) : WithinCapacity (runChecksum s) := by
  unfold Machine.runChecksum
  split
  · exact h.congr rfl
  · exact h.congr rfl

theorem WithinCapacity.runEncode (h : WithinCapacity s) : WithinCapacity (runEncode s) := by
  unfold Machine.runEncode
  split
  · exact h.congr rfl
  · split
    · exact h.congr rfl
    · exact h.congr rfl
    · rename_i hm
      exact h.writeMsg (encodeFrame_length_le hm)

theorem WithinCapacity.runDecode (h : WithinCapacity s) : WithinCapacity (runDecode s) := by
  unfold Machine.runDecode
  split
  · exact h.congr rfl
  · split
    · exact h.congr rfl
    · rename_i hF
      obtain ⟨hm, hd⟩ := decodeFrame_length_le hF
      exact h.writeDecoded (hd.trans hm)

theorem WithinCapacity.runFragment (h : WithinCapacity s) : WithinCapacity (runFragment s) := by
  simp only [Machine.runFragment]
  split
  · exact h.congr rfl
  · split
    · exact h.congr rfl
    · split
      · exact h.congr rfl
      · split
        · exact h.congr rfl
        · split
          · exact h.congr rfl
          · exact h.writeFragment _ (by omega)

theorem WithinCapacity.runEncAck (h : WithinCapacity s) (hp : 16 ≤ s.params.maxMsg) :
    WithinCapacity (runEncAck s) :=
  h.writeMsg ((ackMsg_length_le _ _).trans (by omega))

theorem WithinCapacity.runEncSentinel (h : WithinCapacity s) (hp : 16 ≤ s.params.maxMsg) :
    WithinCapacity (runEncSentinel s) :=
  h.writeMsg (show 3 ≤ s.params.maxMsg by omega)

theorem WithinCapacity.runDecAck (h : WithinCapacity s) : WithinCapacity (runDecAck s) := by
  unfold Machine.runDecAck
  split
  · exact h.congr rfl
  · split
    · exact h.congr rfl
    · split
      · exact h.congr rfl
      · split
        · exact h.congr rfl
        · exact h.congr rfl

theorem WithinCapacity.runIsSentinel (h : WithinCapacity s) : WithinCapacity (runIsSentinel s) := by
  unfold Machine.runIsSentinel
  split
  · exact h.congr rfl
  · split
    · exact h.congr rfl
    · exact h.congr rfl

/-! ## Starting and aborting a session -/

theorem WithinCapacity.beginSend (h : WithinCapacity s) (hv : s.validateSend = 0) : WithinCapacity s.beginSend := by
  obtain ⟨hS, -, -, hL, -, hn, -, -⟩ := s.validateSend_eq_zero.mp hv
  have htotal : (BitVec.ofNat 16 (chunkCount s.cfg.payloadLen.toNat s.cfg.chunkSize.toNat)).toNat =
      chunkCount s.cfg.payloadLen.toNat s.cfg.chunkSize.toNat := by
    rw [BitVec.toNat_ofNat, Nat.mod_eq_of_lt (by omega)]
  have hfits : State.FrameFits { s with tx := { s.tx with
      total := BitVec.ofNat 16 (chunkCount s.cfg.payloadLen.toNat s.cfg.chunkSize.toNat) } } 0 :=
    State.frameFits_of_validated hv htotal (htotal.symm ▸ chunkCount_pos hS hL)
  exact .goto (.offer (h.congr rfl) hfits)

theorem WithinCapacity.runStartSend (h : WithinCapacity s) : WithinCapacity (runStartSend s) := by
  unfold Machine.runStartSend
  split
  · exact h.congr rfl
  · rename_i hv
    exact h.beginSend (not_not.mp hv)

theorem WithinCapacity.beginRecv (h : WithinCapacity s) : WithinCapacity s.beginRecv where
  written := h.written
  offered := h.offered
  assembled := Nat.zero_le _

theorem WithinCapacity.runStartRecv (h : WithinCapacity s) : WithinCapacity (runStartRecv s) := by
  unfold Machine.runStartRecv
  split
  · exact h.congr rfl
  · exact h.beginRecv

theorem WithinCapacity.runAbort (h : WithinCapacity s) : WithinCapacity (runAbort s) := by
  unfold Machine.runAbort
  split
  · exact h
  all_goals exact .finish (h.congr rfl)

/-! ## Commands and the host -/

theorem WithinCapacity.whenIdle {run : State → State} (h : WithinCapacity s) (hrun : WithinCapacity (run s))
    (ht : s.whenIdle run = .next t) : WithinCapacity t := by
  rcases State.whenIdle_cases ht with ⟨-, rfl⟩ | ⟨-, rfl⟩
  · exact hrun
  · exact h.congr rfl

theorem WithinCapacity.exec {i : Instr} (h : WithinCapacity s) (hp : 16 ≤ s.params.maxMsg)
    (ht : exec i s = .next t) : WithinCapacity t := by
  cases i with
  | nop => cases ht; exact h
  | abort => cases ht; exact h.runAbort
  | startSend => exact h.whenIdle h.runStartSend ht
  | startRecv => exact h.whenIdle h.runStartRecv ht
  | clear => exact h.whenIdle (run := runClear) (h.congr rfl) ht
  | opChecksum => exact h.whenIdle h.runChecksum ht
  | opEncode => exact h.whenIdle h.runEncode ht
  | opDecode => exact h.whenIdle h.runDecode ht
  | opFragment => exact h.whenIdle h.runFragment ht
  | opEncAck => exact h.whenIdle (h.runEncAck hp) ht
  | opDecAck => exact h.whenIdle h.runDecAck ht
  | opEncSentinel => exact h.whenIdle (h.runEncSentinel hp) ht
  | opIsSentinel => exact h.whenIdle h.runIsSentinel ht

theorem WithinCapacity.issueCommand {v : Word} (h : WithinCapacity s) (hp : 16 ≤ s.params.maxMsg)
    (ht : issueCommand v s = .next t) : WithinCapacity t := by
  unfold Machine.issueCommand at ht
  split at ht
  · cases ht; exact h.congr rfl
  · exact h.exec hp ht

/-- The port writes only the buffer that is selected. -/
theorem State.portWritable_eq_some {sel : PortSel} {b : Buffer} (h : s.portWritable sel = some b) :
    sel = .storage b := by
  unfold State.portWritable at h
  split at h
  · split at h
    · cases h; rfl
    · cases h
  all_goals cases h
  · rfl
  · rfl

/-- R66: the port writes one byte, below the capacity of the selected buffer. -/
theorem WithinCapacity.writePort (h : WithinCapacity s) (v : Word) : WithinCapacity (s.writePort v) := by
  simp only [State.writePort]
  split
  · exact h.congr rfl
  · rename_i b hb
    split
    · exact h.congr rfl
    · rename_i ha
      rw [State.portWritable_eq_some hb] at ha
      exact (h.memWrite (b := b) (x := [v.extractLsb' 0 8]) (not_le.mp ha)).congr rfl

theorem WithinCapacity.writeConfig (h : WithinCapacity s) (f : ConfigRegs → ConfigRegs) :
    WithinCapacity (s.writeConfig f) := by
  unfold State.writeConfig
  split
  · exact h.congr rfl
  · exact h.congr rfl

theorem WithinCapacity.writeReg {r : HostReg} {v : Word} (h : WithinCapacity s) (hp : 16 ≤ s.params.maxMsg)
    (ht : writeReg r v s = .next t) : WithinCapacity t := by
  cases r with
  | cmd => exact h.issueCommand hp ht
  | bufData => cases ht; exact h.writePort v
  | cfg | chunkSize | maxRetries | ackTimeout | payloadLen => cases ht; exact h.writeConfig _
  | _ => cases ht; exact h.congr rfl

theorem WithinCapacity.hostWrite {off : BitVec 8} {v : Word} (h : WithinCapacity s) (hp : 16 ≤ s.params.maxMsg)
    (ht : hostWrite off v s = .next t) : WithinCapacity t := by
  unfold Machine.hostWrite at ht
  split at ht
  · cases ht; exact h.congr rfl
  · exact h.writeReg hp ht

theorem WithinCapacity.readPort (h : WithinCapacity s) : WithinCapacity s.readPort := by
  simp only [State.readPort]
  split
  · exact h.congr rfl
  · exact h.congr rfl

theorem WithinCapacity.hostRead (h : WithinCapacity s) (off : BitVec 8) : WithinCapacity (hostRead off s) := by
  unfold Machine.hostRead
  split
  · exact h.congr rfl
  · exact h.readPort
  · exact h.congr rfl

theorem withinCapacity_resetEvent (s : State) : WithinCapacity s.resetEvent where
  written b a ha := by cases b <;> cases ha
  offered := Nat.zero_le _
  assembled := Nat.zero_le _

/-! ## The sender's events -/

/-- R53 item 4: in a session that sends or waits, the frame of `TX_CHUNK` fits. -/
theorem Inv.frameFits_chunk (hi : Inv s) (he : s.engine = .sSend ∨ s.engine = .sWait) : s.FrameFits s.tx.chunk := by
  obtain ⟨hv, ht⟩ := hi.validated (he.imp_right .inl)
  exact State.frameFits_of_validated hv ht (hi.sending he).1

theorem WithinCapacity.failAttempt {r : TxLast} (h : WithinCapacity s) (hf : s.FrameFits s.tx.chunk) :
    WithinCapacity (s.failAttempt r) := by
  simp only [State.failAttempt]
  split
  · exact .goto (.offer (h.congr rfl) hf)
  · exact h.congr rfl

theorem WithinCapacity.senderTick (h : WithinCapacity s) (hf : s.FrameFits s.tx.chunk) :
    WithinCapacity (senderTick s) := by
  simp only [Machine.senderTick]
  split
  · exact .failAttempt (h.congr rfl) hf
  · exact h.congr rfl

theorem WithinCapacity.stray (h : WithinCapacity s) (hf : s.FrameFits s.tx.chunk) (r : TxLast) :
    WithinCapacity (s.stray r) := by
  simp only [State.stray]
  split
  · exact .failAttempt (h.congr rfl) hf
  · exact h.congr rfl

/-- R175: a frame that is not the last is followed by one of the same transfer, the last by the sentinel. -/
theorem WithinCapacity.advance (h : WithinCapacity s) (hi : Inv s) (he : s.engine = .sWait) (r : TxLast) :
    WithinCapacity (s.setTxLast r).advance := by
  have hp := Params.sixteen_le_maxMsg hi.params
  obtain ⟨hv, ht⟩ := hi.validated (.inr (.inl he))
  have hk := (hi.sending (.inr he)).1
  simp only [State.advance]
  split
  · exact .goto (.offer (h.congr rfl) (show 3 ≤ s.params.maxMsg by omega))
  · rename_i hne
    have hnext : (s.tx.chunk + 1).toNat < s.tx.total.toNat := by
      have : s.tx.chunk + 1 ≠ s.tx.total := hne
      bv_omega
    have hfits : s.FrameFits (s.tx.chunk + 1) := State.frameFits_of_validated hv ht hnext
    exact .goto (.offer (h.congr rfl) hfits)

theorem WithinCapacity.senderRxDeliver (h : WithinCapacity s) (hi : Inv s) (he : s.engine = .sWait) (st : Status)
    (m : List Byte) : WithinCapacity (senderRxDeliver st m s) := by
  have hf := hi.frameFits_chunk (.inr he)
  unfold Machine.senderRxDeliver
  split
  · exact h
  · split
    · exact h.advance hi he .acked
    · exact .failAttempt (h.congr rfl) hf
    · exact h.stray hf .unmatched
    · exact h.stray hf .notAnAck

theorem WithinCapacity.sentinelTxDone (h : WithinCapacity s) (st : Status) : WithinCapacity (sentinelTxDone st s) := by
  cases st with
  | ok => exact .finish (.cntInc h)
  | fail => exact .finish (h.congr rfl)

/-! ## The receiver's events -/

theorem WithinCapacity.learnTotal (h : WithinCapacity s) (n : BitVec 16) : WithinCapacity (s.learnTotal n) := by
  unfold State.learnTotal
  split
  · exact h.congr rfl
  · exact h

@[simp] theorem State.learnTotal_params (s : State) (n : BitVec 16) : (s.learnTotal n).params = s.params := by
  unfold State.learnTotal
  split <;> rfl

theorem WithinCapacity.detect (h : WithinCapacity s) (i : BitVec 16) : WithinCapacity (s.detect i) := by
  unfold State.detect
  split <;> exact h.congr rfl

@[simp] theorem State.detect_params (s : State) (i : BitVec 16) : (s.detect i).params = s.params := by
  unfold State.detect
  split <;> rfl

theorem WithinCapacity.store (h : WithinCapacity s) (hp : 16 ≤ s.params.maxMsg) (F : Frame) :
    WithinCapacity (s.store F) :=
  have hdetected := (h.learnTotal F.totalChunks).detect F.chunkId
  .goto (.offerAck (.setRxLast (.cntInc (.writeSlot hdetected))) (by simpa using hp))

theorem WithinCapacity.takeFrame (h : WithinCapacity s) (hp : 16 ≤ s.params.maxMsg) (F : Frame) :
    WithinCapacity (s.takeFrame F) := by
  unfold State.takeFrame
  split
  · exact .goto (.offerAck (h.congr rfl) hp)
  · split
    · exact .goto (.offerAck (h.congr rfl) hp)
    · exact h.store hp F

/-- Every slot below `RX_TOTAL ≤ P_MAX_CHUNKS` holds at most `SLOT_BYTES` bytes, so their sum fits `OUT` (R61). -/
theorem Inv.assemble_fits (hi : Inv s) : (s.assemble s.rx.total.toNat).length ≤ s.capacity .out :=
  (State.assemble_length_le hi.slotFits _).trans (Nat.mul_le_mul_right _ hi.totalFits)

theorem WithinCapacity.complete (h : WithinCapacity s) (hi : Inv s) : WithinCapacity s.complete := by
  have hlast : WithinCapacity (s.setRxLast .sentinel 0 0) := .setRxLast h
  have hfit : ((s.setRxLast .sentinel 0 0).assemble s.rx.total.toNat).length ≤
      (s.setRxLast .sentinel 0 0).capacity .out := hi.assemble_fits
  simp only [State.complete]
  split
  · exact .finish (.setMissing (.setOutLen (.memWrite hlast (by rwa [Nat.zero_add])) hfit))
  · split
    · exact .finish (.setMissing hlast)
    · exact .finish (.setMissing hlast)

theorem WithinCapacity.receiverRxDeliver (h : WithinCapacity s) (hi : Inv s) (st : Status) (m : List Byte) :
    WithinCapacity (receiverRxDeliver st m s) := by
  unfold Machine.receiverRxDeliver
  split
  · exact h
  · split
    · exact h.complete hi
    · split
      · exact h.congr rfl
      · exact h.takeFrame (Params.sixteen_le_maxMsg hi.params) _

theorem WithinCapacity.receiverTxDone (h : WithinCapacity s) (st : Status) : WithinCapacity (receiverTxDone st s) := by
  cases st with
  | ok => exact h.congr rfl
  | fail => exact h.congr rfl

/-! ## Events and steps -/

theorem WithinCapacity.tick (h : WithinCapacity s) (hi : Inv s) : WithinCapacity (tick s) := by
  unfold Machine.tick
  split
  · rename_i he
    exact h.senderTick (hi.frameFits_chunk (.inr he))
  all_goals exact h

theorem WithinCapacity.rxDeliver {st : Status} {m : List Byte} (h : WithinCapacity s) (hi : Inv s)
    (ht : rxDeliver st m s = .next t) : WithinCapacity t := by
  rcases rxDeliver_cases ht with ⟨he, rfl⟩ | ⟨-, rfl⟩
  · exact h.senderRxDeliver hi he st m
  · exact h.receiverRxDeliver hi st m

theorem WithinCapacity.txDone {st : Status} (h : WithinCapacity s) (hi : Inv s) (ht : txDone st s = .next t) :
    WithinCapacity t := by
  rcases txDone_cases ht with ⟨he, ⟨-, rfl⟩ | ⟨-, rfl⟩⟩ | ⟨-, rfl⟩ | ⟨-, rfl⟩
  · exact h.congr rfl
  · exact .failAttempt (h.congr rfl) (hi.frameFits_chunk (.inl he))
  · exact h.sentinelTxDone st
  · exact h.receiverTxDone st

theorem WithinCapacity.perform {e : Event} (h : WithinCapacity s) (hi : Inv s) (ht : perform e s = .next t) :
    WithinCapacity t := by
  cases e with
  | reset => cases ht; exact withinCapacity_resetEvent s
  | hostWrite off v => exact h.hostWrite (Params.sixteen_le_maxMsg hi.params) ht
  | hostRead off => cases ht; exact h.hostRead off
  | tick => cases ht; exact h.tick hi
  | rxDeliver st m => exact h.rxDeliver hi ht
  | txDone st => exact h.txDone hi ht

/-- The event list and the reply are in no invariant. -/
theorem Inv.withEvents (h : Inv s) (es : List Event) (r : Option Word) : Inv { s with inputs := es, reply := r } :=
  { h with }

/-- Settles O58, event by event: what each writes fits the buffer it is written to. -/
theorem stepStaysWithinCapacity : Obligations.StepStaysWithinCapacity := by
  unfold Obligations.StepStaysWithinCapacity
  intro s t hi h ht
  rcases step_cases ht with ⟨-, rfl⟩ | ⟨e, rest, -, hperform⟩
  · exact h
  · have htaken : WithinCapacity { s with inputs := rest, reply := none } := h.congr rfl
    exact htaken.perform (hi.withEvents rest none) hperform

end Sys2Proof.Machine
end

