-- ==== Sys2Proof/Proofs/SessionFrame.lean ====
section
/-! PROOFS. What an event leaves as it is: the part of the state that a running session keeps (spec/20_memory.md R65,
spec/70_reset_and_hazards.md R310), and, for every host access and command, all it can do to a session. -/

namespace Sys2Proof.Machine

variable {s t : State}

/-! ## The part of the state a session keeps -/

/-- What a session was started with: the configuration, the parameters and the payload, with the draw that decides what
its unwritten bytes read as. -/
def State.frozen (s : State) : ConfigRegs × Params × Memory × Nat :=
  (s.cfg, s.params, s.bufs.get .payload, s.resets)

theorem State.frozen_eq_iff :
    t.frozen = s.frozen ↔
      t.cfg = s.cfg ∧ t.params = s.params ∧ t.bufs.get .payload = s.bufs.get .payload ∧ t.resets = s.resets := by
  simp [State.frozen]

theorem sameBytes_payload_of_frozen (h : t.frozen = s.frozen) : SameBytes s t .payload := by
  obtain ⟨-, -, hpayload, hresets⟩ := State.frozen_eq_iff.mp h
  exact State.byteAt_congr hpayload hresets

/-! Each operation of a running session leaves the frozen part. -/

@[simp] theorem State.offer_frozen (s : State) (m : List Byte) : (s.offer m).frozen = s.frozen := rfl
@[simp] theorem State.goto_frozen (s : State) (e : EngineState) : (s.goto e).frozen = s.frozen := rfl
@[simp] theorem State.finish_frozen (s : State) (c : ResultCode) (d : BitVec 8) : (s.finish c d).frozen = s.frozen := rfl
@[simp] theorem State.cntInc_frozen (s : State) (c : Counter) : (s.cntInc c).frozen = s.frozen := rfl
@[simp] theorem State.setFlag_frozen (s : State) (f : Flag) : (s.setFlag f).frozen = s.frozen := rfl
@[simp] theorem State.setMissing_frozen (s : State) (f c : BitVec 16) : (s.setMissing f c).frozen = s.frozen := rfl
@[simp] theorem State.setRxLast_frozen (s : State) (e : RxEvent) (d : BitVec 8) (i : BitVec 16) :
    (s.setRxLast e d i).frozen = s.frozen := rfl
@[simp] theorem State.writeSlot_frozen (s : State) (i : BitVec 16) (d : List Byte) :
    (s.writeSlot i d).frozen = s.frozen := rfl
@[simp] theorem State.setTxLast_frozen (s : State) (r : TxLast) : (s.setTxLast r).frozen = s.frozen := rfl
@[simp] theorem State.setTxTimer_frozen (s : State) (v : BitVec 16) : (s.setTxTimer v).frozen = s.frozen := rfl
@[simp] theorem State.emptyReassembly_frozen (s : State) : s.emptyReassembly.frozen = s.frozen := rfl
@[simp] theorem State.offerFrame_frozen (s : State) (k : BitVec 16) : (s.offerFrame k).frozen = s.frozen :=
  s.offer_frozen _
@[simp] theorem State.tx_frozen (s : State) (tx : SenderRegs) : ({ s with tx := tx } : State).frozen = s.frozen := rfl

@[simp] theorem State.failAttempt_frozen (s : State) (r : TxLast) : (s.failAttempt r).frozen = s.frozen := by
  simp only [State.failAttempt]
  split <;> simp

@[simp] theorem senderTick_frozen (s : State) : (senderTick s).frozen = s.frozen := by
  simp only [senderTick]
  split <;> simp

@[simp] theorem State.stray_frozen (s : State) (r : TxLast) : (s.stray r).frozen = s.frozen := by
  simp only [State.stray]
  split <;> simp

@[simp] theorem State.advance_frozen (s : State) : s.advance.frozen = s.frozen := by
  simp only [State.advance]
  split <;> simp

@[simp] theorem senderRxDeliver_frozen (s : State) (st : Status) (m : List Byte) :
    (senderRxDeliver st m s).frozen = s.frozen := by
  unfold senderRxDeliver
  split
  · rfl
  · split <;> simp

@[simp] theorem senderTxDoneFail_frozen (s : State) : (senderTxDoneFail s).frozen = s.frozen := by
  simp [senderTxDoneFail]

@[simp] theorem sentinelTxDone_frozen (s : State) (st : Status) : (sentinelTxDone st s).frozen = s.frozen := by
  cases st <;> simp [sentinelTxDone]

@[simp] theorem State.learnTotal_frozen (s : State) (n : BitVec 16) : (s.learnTotal n).frozen = s.frozen := by
  unfold State.learnTotal
  split <;> simp [State.frozen]

@[simp] theorem State.detect_frozen (s : State) (i : BitVec 16) : (s.detect i).frozen = s.frozen := by
  unfold State.detect
  split <;> simp [State.frozen]

@[simp] theorem State.takeFrame_frozen (s : State) (F : Frame) : (s.takeFrame F).frozen = s.frozen := by
  unfold State.takeFrame
  split
  · simp [State.nakChecksum]
  · split
    · simp [State.rejectFrame]
    · simp [State.store]

@[simp] theorem State.complete_frozen (s : State) : s.complete.frozen = s.frozen := by
  simp only [State.complete]
  split
  · simp [State.frozen, Buffers.get_put_other]
  · split <;> simp

@[simp] theorem receiverRxDeliver_frozen (s : State) (st : Status) (m : List Byte) :
    (receiverRxDeliver st m s).frozen = s.frozen := by
  unfold receiverRxDeliver
  split
  · rfl
  · split
    · simp
    · split <;> simp [State.dropMalformed]

@[simp] theorem receiverTxDone_frozen (s : State) (st : Status) : (receiverTxDone st s).frozen = s.frozen := by
  cases st <;> simp [receiverTxDone]

@[simp] theorem runAbort_frozen (s : State) : (runAbort s).frozen = s.frozen := by
  unfold runAbort
  split <;> simp

/-! ## What leaves a session undisturbed -/

/-- `t` differs from `s` in nothing that the invariants of a session speak of. In IDLE the host may set up the next
session, so only there may the frozen part differ. -/
structure Undisturbed (s t : State) : Prop where
  params : t.params = s.params
  engine : t.engine = s.engine
  tx : t.tx = s.tx
  rx : t.rx = s.rx
  slots : t.slots = s.slots
  memory : ∀ b, Memory.wf (s.bufs.get b) → Memory.wf (t.bufs.get b)
  frozen : s.engine ≠ .idle → t.frozen = s.frozen

namespace Undisturbed

/-- Flags, `RESULT`, the scratch registers, the port, the counters and the reply are in no invariant. -/
theorem of_eq (h : (t.frozen, t.bufs, t.engine, t.tx, t.rx, t.slots) =
    (s.frozen, s.bufs, s.engine, s.tx, s.rx, s.slots)) : Undisturbed s t := by
  simp only [Prod.mk.injEq] at h
  obtain ⟨hfrozen, hbufs, hengine, htx, hrx, hslots⟩ := h
  obtain ⟨-, hparams, -, -⟩ := State.frozen_eq_iff.mp hfrozen
  exact ⟨hparams, hengine, htx, hrx, hslots, fun b hb => hbufs ▸ hb, fun _ => hfrozen⟩

theorem trans {u : State} (h : Undisturbed s t) (h' : Undisturbed t u) : Undisturbed s u where
  params := h'.params.trans h.params
  engine := h'.engine.trans h.engine
  tx := h'.tx.trans h.tx
  rx := h'.rx.trans h.rx
  slots := h'.slots.trans h.slots
  memory b hb := h'.memory b (h.memory b hb)
  frozen hs := (h'.frozen (h.engine ▸ hs)).trans (h.frozen hs)

theorem memWrite {b : Buffer} (a : Nat) (x : List Byte) (hpayload : b = .payload → s.engine = .idle) :
    Undisturbed s (s.memWrite b a x) where
  params := rfl
  engine := rfl
  tx := rfl
  rx := rfl
  slots := rfl
  memory b' hb' := by
    by_cases hb : b' = b
    · subst hb; simpa using Memory.writeAll_wf a x hb'
    · simpa [Buffers.get_put_other hb] using hb'
  frozen hs :=
    State.frozen_eq_iff.mpr ⟨rfl, rfl, Buffers.get_put_other (fun hb => hs (hpayload hb.symm)) _ _, rfl⟩

theorem writeMsg (s : State) (m : List Byte) : Undisturbed s (s.writeMsg m) :=
  (memWrite (b := .msg) 0 m (by simp)).trans (.of_eq rfl)

theorem writeDecoded (s : State) (F : Frame) : Undisturbed s (s.writeDecoded F) :=
  (memWrite (b := .data) 0 F.data (by simp)).trans (.of_eq rfl)

theorem writeFragment (s : State) (n : Nat) (d : List Byte) : Undisturbed s (s.writeFragment n d) :=
  (memWrite (b := .data) 0 d (by simp)).trans (.of_eq rfl)

/-! ## The codec and acknowledgement commands work on the scratch registers -/

theorem runChecksum (s : State) : Undisturbed s (runChecksum s) := by
  unfold Machine.runChecksum
  split <;> exact .of_eq rfl

theorem runEncode (s : State) : Undisturbed s (runEncode s) := by
  unfold Machine.runEncode
  split
  · exact .of_eq rfl
  · split
    · exact .of_eq rfl
    · exact .of_eq rfl
    · exact writeMsg s _

theorem runDecode (s : State) : Undisturbed s (runDecode s) := by
  unfold Machine.runDecode
  split
  · exact .of_eq rfl
  · split
    · exact .of_eq rfl
    · exact writeDecoded s _

theorem runFragment (s : State) : Undisturbed s (runFragment s) := by
  simp only [Machine.runFragment]
  split
  · exact .of_eq rfl
  · split
    · exact .of_eq rfl
    · split
      · exact .of_eq rfl
      · split
        · exact .of_eq rfl
        · split
          · exact .of_eq rfl
          · exact writeFragment s _ _

theorem runDecAck (s : State) : Undisturbed s (runDecAck s) := by
  unfold Machine.runDecAck
  split
  · exact .of_eq rfl
  · split
    · exact .of_eq rfl
    · split
      · exact .of_eq rfl
      · split <;> exact .of_eq rfl

theorem runIsSentinel (s : State) : Undisturbed s (runIsSentinel s) := by
  unfold Machine.runIsSentinel
  split
  · exact .of_eq rfl
  · split <;> exact .of_eq rfl

end Undisturbed

/-! ## All a host access can do to a session -/

/-- What a host access does: it leaves the session as it is, starts one in IDLE, or aborts the one that runs. -/
inductive HostEffect (s : State) : State → Prop
  | undisturbed {t : State} (h : Undisturbed s t) : HostEffect s t
  | beginSend (hidle : s.engine = .idle) (hv : s.validateSend = 0) : HostEffect s s.beginSend
  | beginRecv (hidle : s.engine = .idle) (hv : s.validateRecv = 0) : HostEffect s s.beginRecv
  | abort (hbusy : s.engine ≠ .idle) : HostEffect s (runAbort s)

namespace HostEffect

theorem of_eq (h : (t.frozen, t.bufs, t.engine, t.tx, t.rx, t.slots) =
    (s.frozen, s.bufs, s.engine, s.tx, s.rx, s.slots)) : HostEffect s t := .undisturbed (.of_eq h)

/-- R82: an IDLE-only command is refused elsewhere, and a refusal disturbs nothing. -/
theorem whenIdle {run : State → State} (hrun : s.engine = .idle → HostEffect s (run s))
    (ht : s.whenIdle run = .next t) : HostEffect s t := by
  rcases State.whenIdle_cases ht with ⟨hidle, rfl⟩ | ⟨-, rfl⟩
  · exact hrun hidle
  · exact .of_eq rfl

theorem runStartSend (hidle : s.engine = .idle) : HostEffect s (runStartSend s) := by
  unfold Machine.runStartSend
  split
  · exact .of_eq rfl
  · rename_i hv
    exact .beginSend hidle (not_not.mp hv)

theorem runStartRecv (hidle : s.engine = .idle) : HostEffect s (runStartRecv s) := by
  unfold Machine.runStartRecv
  split
  · exact .of_eq rfl
  · rename_i hv
    exact .beginRecv hidle (not_not.mp hv)

theorem runAbort (s : State) : HostEffect s (runAbort s) := by
  by_cases hidle : s.engine = .idle
  · have hsame : Machine.runAbort s = s := by simp [Machine.runAbort, hidle]
    rw [hsame]
    exact .of_eq rfl
  · exact .abort hidle

theorem exec {i : Instr} (ht : exec i s = .next t) : HostEffect s t := by
  cases i with
  | nop => cases ht; exact .of_eq rfl
  | abort => cases ht; exact .runAbort s
  | startSend => exact .whenIdle .runStartSend ht
  | startRecv => exact .whenIdle .runStartRecv ht
  | clear => exact .whenIdle (run := runClear) (fun _ => .of_eq rfl) ht
  | opChecksum => exact .whenIdle (fun _ => .undisturbed (.runChecksum s)) ht
  | opEncode => exact .whenIdle (fun _ => .undisturbed (.runEncode s)) ht
  | opDecode => exact .whenIdle (fun _ => .undisturbed (.runDecode s)) ht
  | opFragment => exact .whenIdle (fun _ => .undisturbed (.runFragment s)) ht
  | opEncAck => exact .whenIdle (run := runEncAck) (fun _ => .undisturbed (.writeMsg s _)) ht
  | opDecAck => exact .whenIdle (fun _ => .undisturbed (.runDecAck s)) ht
  | opEncSentinel => exact .whenIdle (run := runEncSentinel) (fun _ => .undisturbed (.writeMsg s _)) ht
  | opIsSentinel => exact .whenIdle (fun _ => .undisturbed (.runIsSentinel s)) ht

theorem issueCommand {v : Word} (ht : issueCommand v s = .next t) : HostEffect s t := by
  unfold Machine.issueCommand at ht
  split at ht
  · cases ht; exact .of_eq rfl
  · exact .exec ht

end HostEffect

/-- R65: `PAYLOAD` is writable in IDLE only. -/
theorem State.idle_of_portWritable_payload {sel : PortSel} (h : s.portWritable sel = some .payload) :
    s.engine = .idle := by
  rw [State.portWritable_eq_some h] at h
  simpa [State.portWritable] using h

theorem Undisturbed.writePort (s : State) (v : Word) : Undisturbed s (s.writePort v) := by
  simp only [State.writePort]
  split
  · exact .of_eq rfl
  · rename_i b hb
    split
    · exact .of_eq rfl
    · have hpayload : b = .payload → s.engine = .idle := by
        rintro rfl
        exact State.idle_of_portWritable_payload hb
      exact (memWrite _ _ hpayload).trans (.of_eq rfl)

/-- R65: the configuration changes in IDLE only. -/
theorem Undisturbed.writeConfig (s : State) (f : ConfigRegs → ConfigRegs) : Undisturbed s (s.writeConfig f) := by
  unfold State.writeConfig
  split
  · rename_i hidle
    exact ⟨rfl, rfl, rfl, rfl, rfl, fun _ hb => hb, fun hbusy => absurd hidle hbusy⟩
  · exact .of_eq rfl

theorem HostEffect.writeReg {r : HostReg} {v : Word} (ht : writeReg r v s = .next t) : HostEffect s t := by
  cases r with
  | cmd => exact .issueCommand ht
  | bufData => cases ht; exact .undisturbed (.writePort s v)
  | cfg | chunkSize | maxRetries | ackTimeout | payloadLen => cases ht; exact .undisturbed (.writeConfig s _)
  | _ => cases ht; exact .of_eq rfl

theorem HostEffect.hostWrite {off : BitVec 8} {v : Word} (ht : hostWrite off v s = .next t) : HostEffect s t := by
  unfold Machine.hostWrite at ht
  split at ht
  · cases ht; exact .of_eq rfl
  · exact .writeReg ht

theorem Undisturbed.hostRead (s : State) (off : BitVec 8) : Undisturbed s (hostRead off s) := by
  unfold Machine.hostRead
  split
  · exact .of_eq rfl
  · simp only [State.readPort]
    split <;> exact .of_eq rfl
  · exact .of_eq rfl

/-! ## A running session keeps what it was started with -/

theorem HostEffect.frozen (h : HostEffect s t) (hbusy : s.engine ≠ .idle) : t.frozen = s.frozen := by
  cases h with
  | undisturbed h => exact h.frozen hbusy
  | beginSend hidle => exact absurd hidle hbusy
  | beginRecv hidle => exact absurd hidle hbusy
  | abort => exact runAbort_frozen s

theorem tick_frozen (s : State) : (tick s).frozen = s.frozen := by
  unfold tick
  split
  · exact senderTick_frozen s
  all_goals rfl

theorem rxDeliver_frozen {st : Status} {m : List Byte} (ht : rxDeliver st m s = .next t) : t.frozen = s.frozen := by
  rcases rxDeliver_cases ht with ⟨-, rfl⟩ | ⟨-, rfl⟩
  · exact senderRxDeliver_frozen s st m
  · exact receiverRxDeliver_frozen s st m

theorem txDone_frozen {st : Status} (ht : txDone st s = .next t) : t.frozen = s.frozen := by
  rcases txDone_cases ht with ⟨-, ⟨-, rfl⟩ | ⟨-, rfl⟩⟩ | ⟨-, rfl⟩ | ⟨-, rfl⟩
  · rfl
  · exact senderTxDoneFail_frozen s
  · exact sentinelTxDone_frozen s st
  · exact receiverTxDone_frozen s st

theorem perform_frozen {e : Event} (hbusy : s.engine ≠ .idle) (hreset : e ≠ .reset) (ht : perform e s = .next t) :
    t.frozen = s.frozen := by
  cases e with
  | reset => exact absurd rfl hreset
  | hostWrite off v => exact (HostEffect.hostWrite ht).frozen hbusy
  | hostRead off => cases ht; exact (Undisturbed.hostRead s off).frozen hbusy
  | tick => cases ht; exact tick_frozen s
  | rxDeliver st m => exact rxDeliver_frozen ht
  | txDone st => exact txDone_frozen ht

/-- Settles O41: outside IDLE every event but `Reset` leaves the frozen part, which fixes the payload's bytes. -/
theorem configurationFrozenWhileBusy : Obligations.ConfigurationFrozenWhileBusy := by
  unfold Obligations.ConfigurationFrozenWhileBusy
  intro s t hbusy hreset ht
  have hfrozen : t.frozen = s.frozen := by
    rcases step_cases ht with ⟨-, rfl⟩ | ⟨e, rest, hinputs, hperform⟩
    · rfl
    · exact perform_frozen (s := { s with inputs := rest, reply := none }) hbusy (by simpa [hinputs] using hreset)
        hperform
  obtain ⟨hcfg, hparams, -, -⟩ := State.frozen_eq_iff.mp hfrozen
  exact ⟨hcfg, hparams, sameBytes_payload_of_frozen hfrozen⟩

end Sys2Proof.Machine
end

