-- ==== Sys2Proof/Proofs/Invariants.lean ====
section
/-! PROOFS. The invariants of spec/10_state.md R53 are inductive. They are cut along the engine's states: what holds in
every STATE (`Stored`), what a transfer keeps while it sends and waits (`Transfer`), and what a receive session keeps
(`Receiving`). One rule builds `Inv` for each STATE; each event is then a use of these rules. -/

namespace Sys2Proof.Machine

variable {s t : State}

/-! ## The parts of the invariants -/

/-- What holds in every STATE: the canonical forms, and items 2, 3 and 8 on the reassembly buffer. -/
structure Stored (s : State) : Prop where
  params : s.params.wf = true
  memory : ∀ b, Memory.wf (s.bufs.get b)
  slots : Sparse.wf s.slots
  count : s.rx.count.toNat = s.slots.length
  validKnown : ∀ i, s.valid i = true → s.rx.known = true ∧ i < s.rx.total.toNat
  totalFits : s.rx.total.toNat ≤ s.params.maxChunks
  slotFits : ∀ i, (s.slotData i).length ≤ Config.slotBytes
  expectKnown : s.rx.known = true → s.rx.expect.toNat ≤ s.rx.total.toNat
  expectUnknown : s.rx.known = false → s.rx.expect = 0 ∧ s.rx.total = 0

/-- The configuration and the payload pass R161, and TX_TOTAL is their number of chunks. -/
def Validated (s : State) : Prop :=
  s.validateSend = 0 ∧ s.tx.total.toNat = chunkCount s.cfg.payloadLen.toNat s.cfg.chunkSize.toNat

/-- Item 4: what holds of a transfer while it sends or waits. -/
structure Transfer (s : State) : Prop where
  stored : Stored s
  validated : Validated s
  chunk : s.tx.chunk.toNat < s.tx.total.toNat
  attemptPos : 1 ≤ s.tx.attempt.toNat
  attemptMax : s.tx.attempt.toNat ≤ s.cfg.maxRetries.toNat

/-- Items 3, 6 and 7 in a receive session. -/
structure Receiving (s : State) : Prop where
  stored : Stored s
  slotChunk : ∀ i, (s.slotData i).length ≤ s.cfg.chunkSize.toNat
  outLen : s.rx.outLen = 0
  timer : s.tx.timer = 0

theorem Inv.stored (h : Inv s) : Stored s := { h with }

theorem Inv.timer_eq_zero (h : Inv s) (he : s.engine ≠ .sWait) : s.tx.timer = 0 := by
  by_contra htimer
  exact he (h.timerRuns htimer)

theorem Inv.transfer (h : Inv s) (he : s.engine = .sSend ∨ s.engine = .sWait) : Transfer s := by
  obtain ⟨hchunk, hpos, hmax⟩ := h.sending he
  exact ⟨h.stored, h.validated (he.imp_right .inl), hchunk, hpos, hmax⟩

theorem Inv.receiving (h : Inv s) (he : s.inReceiverSession) : Receiving s :=
  ⟨h.stored, h.slotChunk he, h.outLen he, h.timer_eq_zero (by rcases he with he | he <;> simp [he])⟩

/-! ## One rule for each STATE -/

theorem Stored.idle (h : Stored s) (he : s.engine = .idle) (htimer : s.tx.timer = 0) : Inv s :=
  { h with
    slotChunk := by simp [he]
    sending := by simp [he]
    ending := by simp [he]
    timerRuns := by simp [htimer]
    timerBound := by simp [he]
    outLen := by simp [he]
    validated := by simp [he] }

theorem Transfer.sSend (h : Transfer s) (he : s.engine = .sSend) (htimer : s.tx.timer = 0) : Inv s :=
  { h.stored with
    slotChunk := by simp [he]
    sending := fun _ => ⟨h.chunk, h.attemptPos, h.attemptMax⟩
    ending := by simp [he]
    timerRuns := by simp [htimer]
    timerBound := by simp [he]
    outLen := by simp [he]
    validated := fun _ => h.validated }

theorem Transfer.sWait (h : Transfer s) (he : s.engine = .sWait) (hpos : 1 ≤ s.tx.timer.toNat)
    (hmax : s.tx.timer.toNat ≤ s.cfg.ackTimeout.toNat) : Inv s :=
  { h.stored with
    slotChunk := by simp [he]
    sending := fun _ => ⟨h.chunk, h.attemptPos, h.attemptMax⟩
    ending := by simp [he]
    timerRuns := fun _ => he
    timerBound := fun _ => ⟨hpos, hmax⟩
    outLen := by simp [he]
    validated := fun _ => h.validated }

theorem Stored.sEnd (h : Stored s) (hv : Validated s) (he : s.engine = .sEnd) (htimer : s.tx.timer = 0)
    (hchunk : s.tx.chunk = s.tx.total) : Inv s :=
  { h with
    slotChunk := by simp [he]
    sending := by simp [he]
    ending := fun _ => hchunk
    timerRuns := by simp [htimer]
    timerBound := by simp [he]
    outLen := by simp [he]
    validated := fun _ => hv }

theorem Receiving.inv (h : Receiving s) (he : s.inReceiverSession) : Inv s :=
  { h.stored with
    slotChunk := fun _ => h.slotChunk
    sending := by rcases he with he | he <;> simp [he]
    ending := by rcases he with he | he <;> simp [he]
    timerRuns := by simp [h.timer]
    timerBound := by rcases he with he | he <;> simp [he]
    outLen := fun _ => h.outLen
    validated := by rcases he with he | he <;> simp [he] }

/-! ## What the parts depend on -/

theorem Stored.congr (h : Stored s) (hmemory : ∀ b, Memory.wf (t.bufs.get b))
    (hsame : (t.params, t.slots, t.rx.count, t.rx.known, t.rx.total, t.rx.expect) =
      (s.params, s.slots, s.rx.count, s.rx.known, s.rx.total, s.rx.expect)) : Stored t := by
  simp only [Prod.mk.injEq] at hsame
  obtain ⟨hparams, hslots, hcount, hknown, htotal, hexpect⟩ := hsame
  have hvalid : ∀ i, t.valid i = s.valid i := fun i => by simp [State.valid, hslots]
  have hdata : ∀ i, t.slotData i = s.slotData i := fun i => by simp [State.slotData, hslots]
  exact
    { params := by rw [hparams]; exact h.params
      memory := hmemory
      slots := by rw [hslots]; exact h.slots
      count := by rw [hcount, hslots]; exact h.count
      validKnown := by simp only [hvalid, hknown, htotal]; exact h.validKnown
      totalFits := by rw [htotal, hparams]; exact h.totalFits
      slotFits := by simp only [hdata]; exact h.slotFits
      expectKnown := by rw [hknown, hexpect, htotal]; exact h.expectKnown
      expectUnknown := by rw [hknown, hexpect, htotal]; exact h.expectUnknown }

theorem Stored.memWrite (h : Stored s) (b : Buffer) (a : Nat) (x : List Byte) : Stored (s.memWrite b a x) :=
  h.congr (State.memWrite_wf s b a x h.memory) rfl

theorem Stored.offer (h : Stored s) (m : List Byte) : Stored (s.offer m) :=
  h.congr (State.memWrite_wf s .txmsg 0 m h.memory) rfl

theorem Stored.goto (h : Stored s) (e : EngineState) : Stored (s.goto e) := h.congr h.memory rfl

theorem Stored.setFlag (h : Stored s) (f : Flag) : Stored (s.setFlag f) := h.congr h.memory rfl

theorem Stored.cntInc (h : Stored s) (c : Counter) : Stored (s.cntInc c) := h.congr h.memory rfl

theorem Stored.withTx (h : Stored s) (tx : SenderRegs) : Stored { s with tx := tx } := h.congr h.memory rfl

theorem Stored.setRxLast (h : Stored s) (e : RxEvent) (d : BitVec 8) (i : BitVec 16) : Stored (s.setRxLast e d i) :=
  h.congr h.memory rfl

theorem Stored.setMissing (h : Stored s) (f c : BitVec 16) : Stored (s.setMissing f c) := h.congr h.memory rfl

theorem Stored.setOutLen (h : Stored s) (n : BitVec 24) : Stored { s with rx := { s.rx with outLen := n } } :=
  h.congr h.memory rfl

/-- R263: `finish` ends every session in IDLE with its timer stopped. -/
theorem Stored.finish (h : Stored s) (c : ResultCode) (d : BitVec 8) : Inv (s.finish c d) :=
  Stored.idle (h.congr h.memory rfl) rfl rfl

theorem State.validateSend_congr (h : t.frozen = s.frozen) : t.validateSend = s.validateSend := by
  have hread : ∀ n, t.memRead .payload 0 n = s.memRead .payload 0 n := fun n =>
    State.memRead_congr fun i _ => sameBytes_payload_of_frozen h _
  obtain ⟨hcfg, hparams, -, -⟩ := State.frozen_eq_iff.mp h
  simp only [State.validateSend, hcfg, hparams, hread]

theorem Validated.congr (h : Validated s) (hfrozen : t.frozen = s.frozen) (htotal : t.tx.total = s.tx.total) :
    Validated t := by
  obtain ⟨hcfg, -, -, -⟩ := State.frozen_eq_iff.mp hfrozen
  unfold Validated
  rw [State.validateSend_congr hfrozen, htotal, hcfg]
  exact h

theorem Transfer.congr (h : Transfer s) (hstored : Stored t) (hfrozen : t.frozen = s.frozen)
    (htx : (t.tx.chunk, t.tx.total, t.tx.attempt) = (s.tx.chunk, s.tx.total, s.tx.attempt)) : Transfer t := by
  simp only [Prod.mk.injEq] at htx
  obtain ⟨hchunk, htotal, hattempt⟩ := htx
  obtain ⟨hcfg, -, -, -⟩ := State.frozen_eq_iff.mp hfrozen
  exact
    { stored := hstored
      validated := h.validated.congr hfrozen htotal
      chunk := by rw [hchunk, htotal]; exact h.chunk
      attemptPos := by rw [hattempt]; exact h.attemptPos
      attemptMax := by rw [hattempt, hcfg]; exact h.attemptMax }

theorem Transfer.setFlag (h : Transfer s) (f : Flag) : Transfer (s.setFlag f) := h.congr (h.stored.setFlag f) rfl rfl

theorem Transfer.cntInc (h : Transfer s) (c : Counter) : Transfer (s.cntInc c) := h.congr (h.stored.cntInc c) rfl rfl

theorem Transfer.setTxLast (h : Transfer s) (r : TxLast) : Transfer (s.setTxLast r) :=
  h.congr (h.stored.withTx _) rfl rfl

theorem Transfer.setTxTimer (h : Transfer s) (v : BitVec 16) : Transfer (s.setTxTimer v) :=
  h.congr (h.stored.withTx _) rfl rfl

theorem Transfer.goto (h : Transfer s) (e : EngineState) : Transfer (s.goto e) := h.congr (h.stored.goto e) rfl rfl

theorem Transfer.offerFrame (h : Transfer s) (k : BitVec 16) : Transfer (s.offerFrame k) :=
  h.congr (h.stored.offer _) (s.offerFrame_frozen k) rfl

theorem Receiving.congr (h : Receiving s) (hstored : Stored t)
    (hsame : (t.slots, t.cfg, t.rx.outLen, t.tx.timer) = (s.slots, s.cfg, s.rx.outLen, s.tx.timer)) :
    Receiving t := by
  simp only [Prod.mk.injEq] at hsame
  obtain ⟨hslots, hcfg, hout, htimer⟩ := hsame
  exact
    { stored := hstored
      slotChunk := fun i => by rw [State.slotData, hslots, hcfg]; exact h.slotChunk i
      outLen := hout.trans h.outLen
      timer := htimer.trans h.timer }

theorem Receiving.setFlag (h : Receiving s) (f : Flag) : Receiving (s.setFlag f) := h.congr (h.stored.setFlag f) rfl

theorem Receiving.cntInc (h : Receiving s) (c : Counter) : Receiving (s.cntInc c) := h.congr (h.stored.cntInc c) rfl

theorem Receiving.setRxLast (h : Receiving s) (e : RxEvent) (d : BitVec 8) (i : BitVec 16) :
    Receiving (s.setRxLast e d i) := h.congr (h.stored.setRxLast e d i) rfl

theorem Receiving.goto (h : Receiving s) (e : EngineState) : Receiving (s.goto e) := h.congr (h.stored.goto e) rfl

theorem Receiving.offer (h : Receiving s) (m : List Byte) : Receiving (s.offer m) := h.congr (h.stored.offer m) rfl

/-! ## Host accesses -/

theorem Stored.undisturbed (h : Stored s) (hu : Undisturbed s t) : Stored t :=
  h.congr (fun b => hu.memory b (h.memory b)) (by rw [hu.params, hu.slots, hu.rx])

theorem Inv.undisturbed (h : Inv s) (hu : Undisturbed s t) : Inv t := by
  have hstored := h.stored.undisturbed hu
  by_cases hidle : s.engine = .idle
  · exact hstored.idle (hu.engine.trans hidle) (by rw [hu.tx]; exact h.timer_eq_zero (by simp [hidle]))
  have hfrozen := hu.frozen hidle
  obtain ⟨hcfg, -, -, -⟩ := State.frozen_eq_iff.mp hfrozen
  cases he : s.engine with
  | idle => exact absurd he hidle
  | sSend =>
    have htransfer := (h.transfer (.inl he)).congr hstored hfrozen (by rw [hu.tx])
    exact htransfer.sSend (hu.engine.trans he) (by rw [hu.tx]; exact h.timer_eq_zero (by simp [he]))
  | sWait =>
    have htransfer := (h.transfer (.inr he)).congr hstored hfrozen (by rw [hu.tx])
    obtain ⟨hpos, hmax⟩ := h.timerBound he
    exact htransfer.sWait (hu.engine.trans he) (by rwa [hu.tx]) (by rwa [hu.tx, hcfg])
  | sEnd =>
    have hv : Validated t := Validated.congr (h.validated (.inr (.inr he))) hfrozen (by rw [hu.tx])
    exact hstored.sEnd hv (hu.engine.trans he) (by rw [hu.tx]; exact h.timer_eq_zero (by simp [he]))
      (by rw [hu.tx]; exact h.ending he)
  | rListen =>
    have hreceiving := (h.receiving (.inl he)).congr hstored (by rw [hu.slots, hcfg, hu.rx, hu.tx])
    exact hreceiving.inv (.inl (hu.engine.trans he))
  | rAck =>
    have hreceiving := (h.receiving (.inr he)).congr hstored (by rw [hu.slots, hcfg, hu.rx, hu.tx])
    exact hreceiving.inv (.inr (hu.engine.trans he))

/-! ## The sender -/

/-- R163: a transfer goes on by offering a frame. -/
theorem Transfer.offersFrame (h : Transfer s) (htimer : s.tx.timer = 0) (k : BitVec 16) :
    Inv ((s.offerFrame k).goto .sSend) :=
  ((h.offerFrame k).goto .sSend).sSend rfl htimer

/-- R161, R162: a validated transfer has a first frame, and an attempt to send it. -/
theorem Inv.beginSend (h : Inv s) (hv : s.validateSend = 0) : Inv s.beginSend := by
  obtain ⟨hS, hretries, -, hL, -, hn, -, -⟩ := s.validateSend_eq_zero.mp hv
  have htotal : (BitVec.ofNat 16 (chunkCount s.cfg.payloadLen.toNat s.cfg.chunkSize.toNat)).toNat =
      chunkCount s.cfg.payloadLen.toNat s.cfg.chunkSize.toNat := by
    rw [BitVec.toNat_ofNat, Nat.mod_eq_of_lt (by omega)]
  simp only [State.beginSend]
  refine Transfer.offersFrame ?_ rfl 0
  exact
    { stored := h.stored.congr h.memory rfl
      validated := ⟨(State.validateSend_congr (s := s) rfl).trans hv, htotal⟩
      chunk := htotal.symm ▸ chunkCount_pos hS hL
      attemptPos := le_refl 1
      attemptMax := by
        show 1 ≤ s.cfg.maxRetries.toNat
        bv_omega }

/-- R164: an attempt below MAX_RETRIES is followed by the next one; the last ends the session. -/
theorem Transfer.failAttempt (h : Transfer s) (r : TxLast) : Inv (s.failAttempt r) := by
  simp only [State.failAttempt]
  split
  · rename_i hlt
    have hlt : s.tx.attempt < s.cfg.maxRetries := hlt
    refine Transfer.offersFrame ?_ rfl _
    exact
      { stored := ((h.stored.withTx _).cntInc .retry).setFlag .retry
        validated := h.validated.congr (by simp) rfl
        chunk := h.chunk
        attemptPos := by
          show 1 ≤ (s.tx.attempt + 1).toNat
          bv_omega
        attemptMax := by
          show (s.tx.attempt + 1).toNat ≤ s.cfg.maxRetries.toNat
          bv_omega }
  · exact (h.stored.withTx _).finish _ _

/-- R170: the wait starts at ACK_TIMEOUT, which R161 found positive. -/
theorem Transfer.senderTxDoneOk (h : Transfer s) : Inv (senderTxDoneOk s) := by
  obtain ⟨-, -, htimeout, -⟩ := s.validateSend_eq_zero.mp h.validated.1
  refine (((h.cntInc .txmsg).setTxTimer s.cfg.ackTimeout).goto .sWait).sWait rfl ?_ le_rfl
  show 1 ≤ s.cfg.ackTimeout.toNat
  bv_omega

theorem Transfer.senderTxDoneFail (h : Transfer s) : Inv (senderTxDoneFail s) :=
  (((h.cntInc .txerr).setFlag .txErr).setTxLast .txFail).failAttempt .txFail

/-- R172: the timer counts down while it runs, and fails the attempt at 0. -/
theorem Inv.senderTick (h : Inv s) (he : s.engine = .sWait) : Inv (senderTick s) := by
  have hcounted := (h.transfer (.inr he)).setTxTimer (s.tx.timer - 1)
  obtain ⟨hpos, hmax⟩ := h.timerBound he
  simp only [Machine.senderTick]
  split
  · exact ((hcounted.cntInc .timeout).setTxLast .timeout).failAttempt .timeout
  · rename_i hrunning
    have hrunning : s.tx.timer - 1 ≠ 0 := hrunning
    refine hcounted.sWait he ?_ ?_
    · show 1 ≤ (s.tx.timer - 1).toNat
      bv_omega
    · show (s.tx.timer - 1).toNat ≤ s.cfg.ackTimeout.toNat
      bv_omega

/-- R174: a stray message fails the attempt, or leaves the wait as it is. -/
theorem Inv.stray (h : Inv s) (he : s.engine = .sWait) (r : TxLast) : Inv (s.stray r) := by
  have hmarked := ((h.transfer (.inr he)).cntInc .stray).setTxLast r
  obtain ⟨hpos, hmax⟩ := h.timerBound he
  simp only [State.stray]
  split
  · exact hmarked.failAttempt r
  · exact hmarked.sWait he hpos hmax

/-- R175: after the last frame comes the sentinel, after any other the next frame's first attempt. -/
theorem Transfer.advance (h : Transfer s) : Inv s.advance := by
  obtain ⟨-, hretries, -⟩ := s.validateSend_eq_zero.mp h.validated.1
  have hchunk := h.chunk
  simp only [State.advance]
  split
  · rename_i hlast
    have hv : Validated { s with tx := { s.tx with timer := 0, chunk := s.tx.chunk + 1 } } := h.validated.congr rfl rfl
    exact Stored.sEnd (((h.stored.withTx _).offer sentinel).goto .sEnd) (hv.congr rfl rfl) rfl rfl hlast
  · rename_i hnext
    have hnext : s.tx.chunk + 1 ≠ s.tx.total := hnext
    refine Transfer.offersFrame ?_ rfl _
    exact
      { stored := h.stored.withTx _
        validated := h.validated.congr (by simp) rfl
        chunk := by
          show (s.tx.chunk + 1).toNat < s.tx.total.toNat
          bv_omega
        attemptPos := le_refl 1
        attemptMax := by
          show 1 ≤ s.cfg.maxRetries.toNat
          bv_omega }

theorem Inv.senderRxDeliver (h : Inv s) (he : s.engine = .sWait) (st : Status) (m : List Byte) :
    Inv (senderRxDeliver st m s) := by
  have htransfer := h.transfer (.inr he)
  unfold Machine.senderRxDeliver
  split
  · exact h
  · split
    · exact (htransfer.setTxLast .acked).advance
    · exact ((htransfer.cntInc .nak).setTxLast .nak).failAttempt .nak
    · exact h.stray he .unmatched
    · exact h.stray he .notAnAck

/-- R178: the sentinel is offered once; either way the session is over. -/
theorem Inv.sentinelTxDone (h : Inv s) (st : Status) : Inv (sentinelTxDone st s) := by
  cases st with
  | ok => exact (h.stored.cntInc .txmsg).finish .sendSuccess 0
  | fail => exact ((h.stored.cntInc .txerr).setFlag .txErr).finish .sendSentinelTxFail 0

/-! ## The reassembly slots -/

/-- Setting an entry of a table in canonical form adds one exactly when the key had none. -/
theorem Sparse.length_set {α : Type} {k : Nat} {x : α} {l : List (Nat × α)} (h : Sparse.wf l) :
    (Sparse.set k x l).length = if (Sparse.get? k l).isSome then l.length else l.length + 1 := by
  induction l with
  | nil => rfl
  | cons e rest ih =>
    obtain ⟨j, y⟩ := e
    obtain ⟨hhead, hrest⟩ := List.pairwise_cons.mp h
    simp only [Sparse.set]
    split
    · rename_i hlt
      have hnew : ¬ (Sparse.get? k ((j, y) :: rest)).isSome = true := by
        rw [Sparse.get?_isSome]
        intro hmem
        rcases List.mem_cons.mp hmem with rfl | hmem
        · exact lt_irrefl _ hlt
        · exact lt_asymm hlt (hhead k hmem)
      rw [if_neg hnew]
      rfl
    · split
      · rename_i heq
        simp [Sparse.get?_cons, heq]
      · rename_i hne
        simp only [List.length_cons, ih hrest, Sparse.get?_cons, if_neg (Ne.symm hne)]
        split <;> rfl

/-- A table in canonical form with keys below `n` has at most `n` entries. -/
theorem Sparse.length_le_of_keys_lt {α : Type} {n : Nat} {l : List (Nat × α)} (h : Sparse.wf l)
    (hkeys : ∀ k, (Sparse.get? k l).isSome = true → k < n) : l.length ≤ n := by
  have hnodup : (l.map Prod.fst).Nodup := h.imp fun hlt => ne_of_lt hlt
  have hsubset : l.map Prod.fst ⊆ List.range n := fun k hk =>
    List.mem_range.mpr (hkeys k ((Sparse.get?_isSome k l).mpr hk))
  simpa using (hnodup.subperm hsubset).length_le

/-- R210: the first accepted frame gives the total; nothing is stored before it. -/
theorem Stored.learnTotal (h : Stored s) {n : BitVec 16} (hfits : n.toNat ≤ s.params.maxChunks) :
    Stored (s.learnTotal n) := by
  unfold State.learnTotal
  split
  · rename_i hunknown
    obtain ⟨hexpect, -⟩ := h.expectUnknown hunknown
    exact
      { h with
        validKnown := fun i hi => by
          obtain ⟨hknown, -⟩ := h.validKnown i hi
          simp [hunknown] at hknown
        totalFits := hfits
        expectKnown := fun _ => by simp [hexpect]
        expectUnknown := by simp }
  · exact h

/-- R214: RX_EXPECT stays at or below the total. -/
theorem Stored.detect (h : Stored s) {i : BitVec 16} (hknown : s.rx.known = true)
    (hi : i.toNat < s.rx.total.toNat) : Stored (s.detect i) := by
  have hexpect := h.expectKnown hknown
  have hbound : (BitVec.ofNat 16 (max s.rx.expect.toNat (i.toNat + 1))).toNat ≤ s.rx.total.toNat := by
    rw [BitVec.toNat_ofNat]
    exact (Nat.mod_le _ _).trans (by omega)
  have hmoved : Stored { s with rx := { s.rx with
      expect := BitVec.ofNat 16 (max s.rx.expect.toNat (i.toNat + 1)) } } :=
    { h with
      expectKnown := fun _ => hbound
      expectUnknown := fun hunknown => by simp [hknown] at hunknown }
  unfold State.detect
  split <;> exact hmoved.congr h.memory rfl

/-- R212: a slot below the total takes its data, and RX_COUNT counts it once. -/
theorem Stored.writeSlot (h : Stored s) {i : BitVec 16} {d : List Byte} (hknown : s.rx.known = true)
    (hi : i.toNat < s.rx.total.toNat) (hd : d.length ≤ Config.slotBytes) : Stored (s.writeSlot i d) := by
  have hvalid : ∀ j, (s.writeSlot i d).valid j = true → j < s.rx.total.toNat := by
    intro j hj
    rw [State.valid_writeSlot, Bool.or_eq_true, decide_eq_true_eq] at hj
    rcases hj with hj | rfl
    · exact (h.validKnown j hj).2
    · exact hi
  have hwf : Sparse.wf (s.writeSlot i d).slots := Sparse.wf_set h.slots
  have hbound : (s.writeSlot i d).slots.length ≤ s.rx.total.toNat := Sparse.length_le_of_keys_lt hwf hvalid
  have hlength : (s.writeSlot i d).slots.length = if s.valid i.toNat then s.slots.length else s.slots.length + 1 :=
    Sparse.length_set h.slots
  have hcount : (s.writeSlot i d).rx.count.toNat = (s.writeSlot i d).slots.length := by
    have hbefore := h.count
    rw [hlength] at hbound ⊢
    rw [State.writeSlot_rx]
    cases hnew : s.valid i.toNat with
    | true => simpa using hbefore
    | false =>
      simp only [hnew, Bool.false_eq_true, if_false] at hbound ⊢
      bv_omega
  exact
    { h with
      slots := hwf
      count := hcount
      validKnown := fun j hj => ⟨hknown, hvalid j hj⟩
      slotFits := fun j => by
        rw [State.slotData_writeSlot]
        split
        · exact hd
        · exact h.slotFits j
      expectKnown := h.expectKnown
      expectUnknown := h.expectUnknown }

theorem Stored.emptyReassembly (h : Stored s) : Stored s.emptyReassembly where
  params := h.params
  memory := h.memory
  slots := List.Pairwise.nil
  count := rfl
  validKnown i hi := by simp [State.valid] at hi
  totalFits := Nat.zero_le _
  slotFits i := by simp [State.slotData]
  expectKnown := by simp
  expectUnknown := by simp

/-! ## The receiver -/

/-- R202: a receive session starts with an empty reassembly buffer. -/
theorem Inv.beginRecv (h : Inv s) (hidle : s.engine = .idle) : Inv s.beginRecv := by
  have hreceiving : Receiving s.beginRecv :=
    { stored := h.stored.emptyReassembly.congr h.memory rfl
      slotChunk := fun i => Nat.zero_le _
      outLen := rfl
      timer := h.timer_eq_zero (by simp [hidle]) }
  exact hreceiving.inv (.inl rfl)

/-- The receiver goes on by offering an acknowledgement. -/
theorem Receiving.offersAck (h : Receiving s) (m : List Byte) : Inv ((s.offer m).goto .rAck) :=
  ((h.offer m).goto .rAck).inv (.inr rfl)

/-- What the acceptance check establishes of a frame it passes (R209). -/
theorem State.acceptCheck_eq_none {F : Frame} (h : s.acceptCheck F = none) :
    F.chunkId.toNat < F.totalChunks.toNat ∧ F.totalChunks.toNat ≤ s.params.maxChunks ∧
      (s.rx.known = true → F.totalChunks = s.rx.total) ∧ F.data.length ≤ s.cfg.chunkSize.toNat := by
  unfold State.acceptCheck at h
  split at h
  · cases h
  · split at h
    · cases h
    · split at h
      · cases h
      · split at h
        · cases h
        · rename_i hrange hcapacity htotal hsize
          exact ⟨by omega, by omega, by simpa using htotal, by omega⟩

/-- After an accepted frame the total is known, and it is the frame's. -/
theorem State.learnTotal_rx {n : BitVec 16} (h : s.rx.known = true → n = s.rx.total) :
    (s.learnTotal n).rx = { s.rx with known := true, total := n } := by
  unfold State.learnTotal
  split
  · rfl
  · rename_i hknown
    have hknown : s.rx.known = true := by simpa using hknown
    rw [h hknown, ← hknown]

@[simp] theorem State.learnTotal_tx (s : State) (n : BitVec 16) : (s.learnTotal n).tx = s.tx := by
  unfold State.learnTotal
  split <;> rfl

@[simp] theorem State.learnTotal_slots (s : State) (n : BitVec 16) : (s.learnTotal n).slots = s.slots := by
  unfold State.learnTotal
  split <;> rfl

@[simp] theorem State.detect_rx (s : State) (i : BitVec 16) :
    (s.detect i).rx = { s.rx with expect := BitVec.ofNat 16 (max s.rx.expect.toNat (i.toNat + 1)) } := by
  unfold State.detect
  split <;> rfl

@[simp] theorem State.detect_tx (s : State) (i : BitVec 16) : (s.detect i).tx = s.tx := by
  unfold State.detect
  split <;> rfl

@[simp] theorem State.detect_slots (s : State) (i : BitVec 16) : (s.detect i).slots = s.slots := by
  unfold State.detect
  split <;> rfl

theorem Receiving.learnTotal (h : Receiving s) {n : BitVec 16} (hn : s.rx.known = true → n = s.rx.total)
    (hfits : n.toNat ≤ s.params.maxChunks) : Receiving (s.learnTotal n) := by
  obtain ⟨hcfg, -, -, -⟩ := State.frozen_eq_iff.mp (s.learnTotal_frozen n)
  exact h.congr (h.stored.learnTotal hfits) (by simp [hcfg, State.learnTotal_rx hn])

theorem Receiving.detect (h : Receiving s) {i : BitVec 16} (hknown : s.rx.known = true)
    (hi : i.toNat < s.rx.total.toNat) : Receiving (s.detect i) := by
  obtain ⟨hcfg, -, -, -⟩ := State.frozen_eq_iff.mp (s.detect_frozen i)
  exact h.congr (h.stored.detect hknown hi) (by simp [hcfg])

/-- SLOT_LEN is at most CHUNK_SIZE, whose 8 bits keep it within SLOT_BYTES. -/
theorem Receiving.writeSlot (h : Receiving s) {i : BitVec 16} {d : List Byte} (hknown : s.rx.known = true)
    (hi : i.toNat < s.rx.total.toNat) (hd : d.length ≤ s.cfg.chunkSize.toNat) : Receiving (s.writeSlot i d) where
  stored := h.stored.writeSlot hknown hi (by simp only [Config.slotBytes]; omega)
  slotChunk j := by
    rw [State.slotData_writeSlot]
    split
    · exact hd
    · exact h.slotChunk j
  outLen := h.outLen
  timer := h.timer

/-- R212: an accepted frame is stored and acknowledged. -/
theorem Receiving.store (h : Receiving s) {F : Frame} (hF : s.acceptCheck F = none) : Inv (s.store F) := by
  obtain ⟨hrange, hcapacity, htotal, hsize⟩ := State.acceptCheck_eq_none hF
  have hrx := State.learnTotal_rx htotal
  have hlearned := h.learnTotal htotal hcapacity
  have hdetected : Receiving ((s.learnTotal F.totalChunks).detect F.chunkId) :=
    hlearned.detect (by rw [hrx]) (by rw [hrx]; exact hrange)
  obtain ⟨hcfg, -, -, -⟩ : ((s.learnTotal F.totalChunks).detect F.chunkId).cfg = s.cfg ∧ _ :=
    State.frozen_eq_iff.mp (by simp)
  have hstored := hdetected.writeSlot (i := F.chunkId) (d := F.data) (by simp [hrx]) (by simpa [hrx] using hrange)
    (by rw [hcfg]; exact hsize)
  exact ((hstored.cntInc .rxok).setRxLast _ _ _).offersAck _

theorem Receiving.takeFrame (h : Receiving s) (F : Frame) : Inv (s.takeFrame F) := by
  unfold State.takeFrame
  split
  · exact (((h.cntInc .csum).setFlag .csumErr).setRxLast _ _ _).offersAck _
  · split
    · exact (((h.cntInc .reject).setFlag .reject).setRxLast _ _ _).offersAck _
    · rename_i hF
      exact h.store hF

/-- R215: the sentinel ends the session, whatever it finds. -/
theorem Stored.complete (h : Stored s) : Inv s.complete := by
  have hlast := h.setRxLast .sentinel 0 0
  simp only [State.complete]
  split
  · exact (((hlast.memWrite .out 0 _).setOutLen _).setMissing _ _).finish _ _
  · split
    · exact (hlast.setMissing _ _).finish _ _
    · exact (hlast.setMissing _ _).finish _ _

theorem Inv.receiverRxDeliver (h : Inv s) (he : s.engine = .rListen) (st : Status) (m : List Byte) :
    Inv (receiverRxDeliver st m s) := by
  have hreceiving := h.receiving (.inl he)
  unfold Machine.receiverRxDeliver
  split
  · exact h
  · split
    · exact h.stored.complete
    · split
      · exact (((hreceiving.cntInc .malformed).setFlag .malformed).setRxLast _ _ _).inv (.inl he)
      · exact hreceiving.takeFrame _

/-- R217: either status of an acknowledgement's `TxDone` leads back to R_LISTEN. -/
theorem Receiving.receiverTxDone (h : Receiving s) (st : Status) : Inv (receiverTxDone st s) := by
  cases st with
  | ok => exact ((h.cntInc .txmsg).goto .rListen).inv (.inl rfl)
  | fail => exact (((h.cntInc .txerr).setFlag .txErr).goto .rListen).inv (.inl rfl)

/-! ## Reset, events and steps -/

theorem stored_resetWith {p : Params} (hp : p.wf = true) : Stored (State.resetWith p) where
  params := hp
  memory := Buffers.unwritten_wf
  slots := List.Pairwise.nil
  count := rfl
  validKnown i hi := by cases hi
  totalFits := Nat.zero_le _
  slotFits _ := Nat.zero_le _
  expectKnown hknown := by cases hknown
  expectUnknown _ := ⟨rfl, rfl⟩

theorem inv_resetWith {p : Params} (hp : p.wf = true) : Inv (State.resetWith p) := (stored_resetWith hp).idle rfl rfl

/-- Settles O56: nothing is written and no session runs. -/
theorem invariantsHoldAtReset : Obligations.InvariantsHoldAtReset := by
  unfold Obligations.InvariantsHoldAtReset
  intro p hp
  exact ⟨inv_resetWith hp, (withinCapacity_resetEvent (State.resetWith p)).congr rfl⟩

theorem Inv.runAbort (h : Inv s) : Inv (runAbort s) := by
  unfold Machine.runAbort
  split
  · exact h
  · exact (h.stored.withTx _).finish _ _
  · exact (h.stored.withTx _).finish _ _
  · exact (h.stored.withTx _).finish _ _
  · exact h.stored.emptyReassembly.finish _ _
  · exact h.stored.emptyReassembly.finish _ _

theorem Inv.hostEffect (h : Inv s) (he : HostEffect s t) : Inv t := by
  cases he with
  | undisturbed hu => exact h.undisturbed hu
  | beginSend _ hv => exact h.beginSend hv
  | beginRecv hidle => exact h.beginRecv hidle
  | abort => exact h.runAbort

theorem Inv.tick (h : Inv s) : Inv (tick s) := by
  unfold Machine.tick
  split
  · rename_i he
    exact h.senderTick he
  all_goals exact h

theorem Inv.rxDeliver {st : Status} {m : List Byte} (h : Inv s) (ht : rxDeliver st m s = .next t) : Inv t := by
  rcases rxDeliver_cases ht with ⟨he, rfl⟩ | ⟨he, rfl⟩
  · exact h.senderRxDeliver he st m
  · exact h.receiverRxDeliver he st m

theorem Inv.txDone {st : Status} (h : Inv s) (ht : txDone st s = .next t) : Inv t := by
  rcases txDone_cases ht with ⟨he, ⟨-, rfl⟩ | ⟨-, rfl⟩⟩ | ⟨-, rfl⟩ | ⟨he, rfl⟩
  · exact (h.transfer (.inl he)).senderTxDoneOk
  · exact (h.transfer (.inl he)).senderTxDoneFail
  · exact h.sentinelTxDone st
  · exact (h.receiving (.inr he)).receiverTxDone st

theorem Inv.perform {e : Event} (h : Inv s) (ht : perform e s = .next t) : Inv t := by
  cases e with
  | reset =>
    cases ht
    exact { inv_resetWith h.params with }
  | hostWrite off v => exact h.hostEffect (.hostWrite ht)
  | hostRead off => cases ht; exact h.undisturbed (.hostRead s off)
  | tick => cases ht; exact h.tick
  | rxDeliver st m => exact h.rxDeliver ht
  | txDone st => exact h.txDone ht

/-- Settles O57, event by event: each leads to a STATE whose rule it satisfies. -/
theorem stepKeepsInvariants : Obligations.StepKeepsInvariants := by
  unfold Obligations.StepKeepsInvariants
  intro s t h ht
  rcases step_cases ht with ⟨-, rfl⟩ | ⟨e, rest, -, hperform⟩
  · exact h
  · exact (h.withEvents rest none).perform hperform

end Sys2Proof.Machine
end

