-- ==== Sys2Proof/Proofs/HostReads.lean ====
section
/-! PROOFS. What a `HostRead` returns (spec/20_memory.md R62, R66, R67): the word of a register, or one byte of a buffer
through the port. -/

namespace Sys2Proof.Machine

variable {s : State}

/-! ## Reading a register -/

/-- A read of any register but `BUF_DATA` replies its word and changes nothing else (R62). -/
theorem perform_hostRead_register {off : BitVec 8} {r : HostReg} (hoff : HostReg.ofOffset off = some r)
    (hr : r ≠ .bufData) (s : State) : perform (.hostRead off) s = .next { s with reply := some (s.readReg r) } := by
  cases r with
  | bufData => exact absurd rfl hr
  | _ => simp only [perform, hostRead, hoff, State.replyWith]

/-- The read of a register whose word is known. -/
theorem perform_hostRead_word (r : HostReg) {off : BitVec 8} {w : Word} (hw : s.readReg r = w)
    (hoff : HostReg.ofOffset off = some r := by rfl) (hr : r ≠ .bufData := by decide) :
    perform (.hostRead off) s = .next { s with reply := some w } :=
  hw ▸ perform_hostRead_register hoff hr s

/-- A field in the low bits of a word whose other bits are res0. -/
theorem setWidth_eq_zero_append {n k : Nat} (x : BitVec n) : x.setWidth (k + n) = 0#k ++ x := by
  apply BitVec.eq_of_toNat_eq
  rw [BitVec.toNat_setWidth_of_le (by omega)]
  simp

/-- One more field below those of a word whose other bits are res0. -/
theorem setWidth_append_of_setWidth {m n v : Nat} {x : BitVec m} {w : BitVec v} (hx : x.setWidth v = w) (y : BitVec n)
    (hmv : m ≤ v := by decide) : (x ++ y).setWidth (v + n) = w ++ y := by
  subst hx
  apply BitVec.eq_of_toNat_eq
  rw [BitVec.toNat_setWidth_of_le (by omega), BitVec.toNat_append, BitVec.toNat_append,
    BitVec.toNat_setWidth_of_le hmv]

/-- Two fields in the low bits of a word whose other bits are res0. -/
theorem setWidth_append_eq_zero_append {m n k : Nat} (x : BitVec m) (y : BitVec n) :
    (x ++ y).setWidth (k + m + n) = 0#k ++ x ++ y :=
  setWidth_append_of_setWidth (setWidth_eq_zero_append x) y (by omega)

/-- The CODING bit is 1 under HEX (R23). -/
theorem Coding.bit_eq (c : Coding) : c.bit = BitVec.ofBool (decide (c = .hex)) := by cases c <;> rfl

theorem EngineState.offering_eq (e : EngineState) : e.offering = decide (e = .sSend ∨ e = .sEnd ∨ e = .rAck) := by
  cases e <;> rfl

theorem EngineState.receiveReady_eq (e : EngineState) : e.receiveReady = decide (e = .sWait ∨ e = .rListen) := by
  cases e <;> rfl

/-- `CFG`: IRQ_EN, STRAY_POLICY and CODING in bits 2 to 0 (R23). -/
theorem State.readReg_cfg (s : State) :
    s.readReg .cfg = 0#29 ++ BitVec.ofBool s.cfg.irqEn ++ BitVec.ofBool s.cfg.strayPolicy ++
      BitVec.ofBool (decide (s.cfg.coding = .hex)) := by
  rw [← Coding.bit_eq]
  exact setWidth_append_of_setWidth (setWidth_append_eq_zero_append _ _) _

/-- `STATUS`: IRQ, TX_OFFER, RX_READY and BUSY in bits 7 to 4, STATE below (R28). -/
theorem State.readReg_status (s : State) :
    s.readReg .status = 0#24 ++ BitVec.ofBool (s.flags.getLsbD 0 && s.cfg.irqEn) ++
      BitVec.ofBool (decide (s.engine = .sSend ∨ s.engine = .sEnd ∨ s.engine = .rAck)) ++
      BitVec.ofBool (decide (s.engine = .sWait ∨ s.engine = .rListen)) ++
      BitVec.ofBool (decide (s.engine ≠ .idle)) ++ s.engine.code := by
  rw [← EngineState.offering_eq, ← EngineState.receiveReady_eq]
  have hirq := setWidth_eq_zero_append (k := 24) (BitVec.ofBool s.irq)
  have hoffer := setWidth_append_of_setWidth hirq (BitVec.ofBool s.engine.offering)
  have hready := setWidth_append_of_setWidth hoffer (BitVec.ofBool s.engine.receiveReady)
  have hbusy := setWidth_append_of_setWidth hready (BitVec.ofBool (decide (s.engine ≠ .idle)))
  exact setWidth_append_of_setWidth hbusy s.engine.code

/-- Settles O35: each offset's register, and its word field by field. -/
theorem hostReadReturnsFields : Obligations.HostReadReturnsFields := by
  unfold Obligations.HostReadReturnsFields
  intro s
  refine ⟨fun off r hoff hr => perform_hostRead_register hoff hr s, ?_, rfl, rfl, rfl, rfl, rfl⟩
  simp only [List.forall_mem_cons]
  exact
    ⟨perform_hostRead_word .id rfl, perform_hostRead_word .cmd rfl,
      perform_hostRead_word .cfg s.readReg_cfg,
      perform_hostRead_word .chunkSize (setWidth_eq_zero_append _),
      perform_hostRead_word .maxRetries (setWidth_eq_zero_append _),
      perform_hostRead_word .ackTimeout (setWidth_eq_zero_append _),
      perform_hostRead_word .payloadLen (setWidth_eq_zero_append _),
      perform_hostRead_word .status s.readReg_status,
      perform_hostRead_word .result (setWidth_append_eq_zero_append _ _),
      perform_hostRead_word .flags (setWidth_eq_zero_append _),
      perform_hostRead_word .txPos rfl, perform_hostRead_word .txRetry rfl,
      perform_hostRead_word .txFailId (setWidth_eq_zero_append _),
      perform_hostRead_word .rxTotal (setWidth_append_eq_zero_append _ _),
      perform_hostRead_word .rxCount rfl, perform_hostRead_word .rxMissing rfl,
      perform_hostRead_word .outLen (setWidth_eq_zero_append _),
      perform_hostRead_word .opStatus (setWidth_append_eq_zero_append _ _),
      perform_hostRead_word .csumOut (setWidth_eq_zero_append _),
      perform_hostRead_word .fChunkId (setWidth_eq_zero_append _),
      perform_hostRead_word .fTotal (setWidth_eq_zero_append _),
      perform_hostRead_word .fChecksum (setWidth_eq_zero_append _),
      perform_hostRead_word .fLen (setWidth_eq_zero_append _),
      perform_hostRead_word .msgLen (setWidth_eq_zero_append _),
      perform_hostRead_word .ackCtrl (setWidth_append_eq_zero_append _ _),
      perform_hostRead_word .ackExpect (setWidth_eq_zero_append _),
      perform_hostRead_word .bufSel (setWidth_eq_zero_append _),
      perform_hostRead_word .bufAddr (setWidth_eq_zero_append _),
      perform_hostRead_word .txLen (setWidth_eq_zero_append _),
      perform_hostRead_word .rxLast rfl,
      perform_hostRead_word .cnt0 rfl, perform_hostRead_word .cnt1 rfl, perform_hostRead_word .cnt2 rfl,
      perform_hostRead_word .cnt3 rfl, perform_hostRead_word .cnt4 rfl, perform_hostRead_word .cnt5 rfl,
      by simp⟩

/-! ## Reading a byte through the port -/

/-- R66: a refused read of `BUF_DATA` returns 0 with `FLAGS.HOST_ERR`, and advances. -/
theorem State.readPort_refused (h : PortSel.ofSel s.port.sel = .reserved ∨
      s.portCapacity (PortSel.ofSel s.port.sel) ≤ s.port.addr.toNat) :
    s.readPort = { s with
      flags := s.flags ||| 0b100#10, port := { s.port with addr := s.port.addr + 1 }, reply := some 0 } :=
  if_pos h

/-- R66: a read of `BUF_DATA` that is not refused returns the byte at `BUF_ADDR`, and advances. -/
theorem State.readPort_taken (hsel : PortSel.ofSel s.port.sel ≠ .reserved)
    (haddr : s.port.addr.toNat < s.portCapacity (PortSel.ofSel s.port.sel)) :
    s.readPort = { s with
      port := { s.port with addr := s.port.addr + 1 }
      reply := some ((s.portByte (PortSel.ofSel s.port.sel) s.port.addr.toNat).setWidth 32) } :=
  if_neg (not_or.mpr ⟨hsel, not_le.mpr haddr⟩)

/-- The selects 6 and 7 name no buffer (R61). -/
theorem PortSel.ofSel_reserved {sel : BitVec 3} (h : 6 ≤ sel.toNat) : PortSel.ofSel sel = .reserved := by
  obtain h6 | h7 : sel.toNat = 6 ∨ sel.toNat = 7 := by omega
  · simp [PortSel.ofSel, h6]
  · simp [PortSel.ofSel, h7]

/-- Bit `j` of a sum of the bits that `p` selects (R52). -/
theorem getLsbD_foldl_or_shift (p : Nat → Bool) {j : Nat} (hj : j < 8) (n : Nat) :
    ((List.range n).foldl (fun (acc : Byte) k => if p k then acc ||| (1#8 <<< k) else acc) 0).getLsbD j =
      (decide (j < n) && p j) := by
  induction n with
  | zero => simp
  | succ n ih =>
    have hbit : (1#8 <<< n).getLsbD j = decide (j = n) := by
      rw [BitVec.getLsbD_shiftLeft, BitVec.getLsbD_one, Bool.eq_iff_iff]
      simp only [Bool.and_eq_true, Bool.not_eq_true', decide_eq_true_eq, decide_eq_false_iff_not]
      omega
    rw [List.range_succ, List.foldl_append, List.foldl_cons, List.foldl_nil]
    by_cases hp : p n = true
    · rw [if_pos hp, BitVec.getLsbD_or, ih, hbit]
      by_cases hjn : j = n
      · simp [hjn, hp]
      · simp [hjn, show j < n + 1 ↔ j < n by omega]
    · rw [if_neg hp, ih]
      by_cases hjn : j = n
      · simp [hjn, hp]
      · simp [show j < n + 1 ↔ j < n by omega]

theorem State.getLsbD_bitmapByte (s : State) (a : Nat) {k : Nat} (hk : k < 8) :
    (s.bitmapByte a).getLsbD k = (decide (8 * a + k < s.params.maxChunks) && s.valid (8 * a + k)) := by
  rw [State.bitmapByte, getLsbD_foldl_or_shift _ hk]
  simp [hk]

/-- Settles O37: the port's select names the buffer and its capacity; each clause is a refused or a taken read. -/
theorem bytePortRead : Obligations.BytePortRead := by
  unfold Obligations.BytePortRead
  rintro s a next rfl rfl
  have hread : perform (.hostRead 0x70) s = .next s.readPort := rfl
  rw [hread]
  refine ⟨fun h => ?_, fun b h => ?_, fun hsel hcap hout => ?_, fun hsel hcap => ?_⟩
  · rw [State.readPort_refused]
    rcases h with h | ⟨hsel, h⟩ | ⟨hsel | hsel | hsel, h⟩ | ⟨hsel, h⟩ | ⟨hsel, h⟩
    · exact .inl (PortSel.ofSel_reserved h)
    all_goals
      rw [hsel]
      exact .inr h
  · rcases h with ⟨hsel, rfl, h⟩ | ⟨hsel, rfl, h⟩ | ⟨hsel, rfl, h⟩ | ⟨hsel, rfl, h⟩ | ⟨hsel, rfl, h, hout⟩
    all_goals rw [State.readPort_taken (by rw [hsel]; decide) (by rw [hsel]; exact h), hsel]
    · rfl
    · rfl
    · rfl
    · rfl
    · have hbyte : s.portByte (PortSel.ofSel 3) s.port.addr.toNat = s.byteAt .out s.port.addr.toNat :=
        if_neg (not_le.mpr hout)
      rw [hbyte]
  · have hbyte : s.portByte (PortSel.ofSel 3) s.port.addr.toNat = 0 := if_pos hout
    rw [State.readPort_taken (by rw [hsel]; decide) (by rw [hsel]; exact hcap), hsel, hbyte]
    rfl
  · refine ⟨s.bitmapByte s.port.addr.toNat, ?_, fun k hk => s.getLsbD_bitmapByte _ hk⟩
    rw [State.readPort_taken (by rw [hsel]; decide) (by rw [hsel]; exact hcap), hsel]
    rfl

end Sys2Proof.Machine
end

/-! PROOFS. What a `HostWrite` does (spec/20_memory.md R62 to R67): the command it issues, the accesses refused, the
fields it writes, and the byte it stores through the port. -/

namespace Sys2Proof.Machine

variable {s t : State}

/-! ## Issuing a command -/

/-- R67: a write of a command's word to `CMD` is the command's meaning. -/
theorem perform_commandWrite {v : Word} {i : Instr} (hv : decodeWord v = .ok i) (s : State) :
    perform (commandWrite v) s = exec i s := by
  change issueCommand v s = exec i s
  rw [issueCommand, hv]

/-- Settles O1: the law of a step with and without input, and the meaning of a command write. -/
theorem stepRunsTheCommandWritten : Obligations.StepRunsTheCommandWritten := by
  unfold Obligations.StepRunsTheCommandWritten
  intro s e rest v i
  refine ⟨step_of_no_input, step_of_input, fun hinputs hv _ => ?_⟩
  rw [step_of_input hinputs, perform_commandWrite hv]

/-! ## Refused accesses -/

/-- R63: a misaligned or reserved offset is the offset of no register. -/
theorem HostReg.ofOffset_eq_none {off : BitVec 8} (h : off.toNat % 4 ≠ 0 ∨ off.toNat = 0x7C ∨ 0x98 ≤ off.toNat) :
    HostReg.ofOffset off = none := by
  unfold HostReg.ofOffset
  split <;> first | rfl | omega

theorem perform_hostRead_reserved {off : BitVec 8} (hoff : HostReg.ofOffset off = none) (s : State) :
    perform (.hostRead off) s = .next (s.hostError.replyWith 0) := by
  simp only [perform, hostRead, hoff]

theorem perform_hostWrite_reserved {off : BitVec 8} (hoff : HostReg.ofOffset off = none) (v : Word) (s : State) :
    perform (.hostWrite off v) s = .next s.hostError := by
  simp only [perform, hostWrite, hoff]

theorem perform_hostWrite_register {off : BitVec 8} {r : HostReg} (hoff : HostReg.ofOffset off = some r) (v : Word)
    (s : State) : perform (.hostWrite off v) s = writeReg r v s := by
  simp only [perform, hostWrite, hoff]

/-- An offset listed by its number is one of the listed offsets. -/
theorem forall_offset_of_forall_mem {P : BitVec 8 → Prop} {l : List Nat} (h : ∀ n ∈ l, P (BitVec.ofNat 8 n))
    {off : BitVec 8} (hoff : off.toNat ∈ l) : P off := by
  simpa using h _ hoff

/-- R64: the offsets of the read-only registers refuse a write. -/
theorem perform_hostWrite_readOnly (v : Word) (s : State) :
    ∀ n ∈ [0x00, 0x1C, 0x20, 0x28, 0x2C, 0x30, 0x34, 0x38, 0x3C, 0x40, 0x44, 0x48, 0x74, 0x78,
        0x80, 0x84, 0x88, 0x8C, 0x90, 0x94],
      perform (.hostWrite (BitVec.ofNat 8 n) v) s = .next s.hostError := by
  simp only [List.forall_mem_cons]
  exact ⟨rfl, rfl, rfl, rfl, rfl, rfl, rfl, rfl, rfl, rfl, rfl, rfl, rfl, rfl, rfl, rfl, rfl, rfl, rfl, rfl, by simp⟩

/-- Settles O32: an offset of no register, an offset of a read-only register, and `CMD`. -/
theorem refusedHostAccess : Obligations.RefusedHostAccess := by
  unfold Obligations.RefusedHostAccess
  intro s off v
  refine ⟨fun h => ?_, fun h => ?_, perform_hostRead_word .cmd rfl⟩
  · have hoff := HostReg.ofOffset_eq_none h
    exact ⟨perform_hostRead_reserved hoff s, perform_hostWrite_reserved hoff v s⟩
  · exact forall_offset_of_forall_mem (P := fun off => perform (.hostWrite off v) s = .next s.hostError)
      (perform_hostWrite_readOnly v s) h

/-! ## Writing through the byte port -/

/-- R66: a refused write of `BUF_DATA` sets `FLAGS.HOST_ERR` and advances. -/
theorem State.writePort_refused (v : Word)
    (h : s.portWritable (PortSel.ofSel s.port.sel) = none ∨
      s.portCapacity (PortSel.ofSel s.port.sel) ≤ s.port.addr.toNat) :
    s.writePort v = { s with flags := s.flags ||| 0b100#10, port := { s.port with addr := s.port.addr + 1 } } := by
  rw [State.writePort]
  cases hb : s.portWritable (PortSel.ofSel s.port.sel) with
  | none => rfl
  | some b => exact if_pos (h.resolve_left (by simp [hb]))

/-- R66: a write of `BUF_DATA` that is not refused stores `v[7:0]` at `BUF_ADDR`, and advances. -/
theorem State.writePort_taken (v : Word) {b : Buffer} (hb : s.portWritable (PortSel.ofSel s.port.sel) = some b)
    (haddr : s.port.addr.toNat < s.portCapacity (PortSel.ofSel s.port.sel)) :
    s.writePort v = (s.memWrite b s.port.addr.toNat [v.extractLsb' 0 8]).portAdvance := by
  simp only [State.writePort, hb]
  exact if_neg (not_le.mpr haddr)

/-- R61, R66: the host writes no buffer of a select from 3 on. -/
theorem State.portWritable_of_three_le (s : State) {sel : BitVec 3} (h : 3 ≤ sel.toNat) :
    s.portWritable (PortSel.ofSel sel) = none := by
  by_cases h6 : 6 ≤ sel.toNat
  · rw [PortSel.ofSel_reserved h6]
    rfl
  · obtain h3 | h4 | h5 : sel.toNat = 3 ∨ sel.toNat = 4 ∨ sel.toNat = 5 := by omega
    · simp only [PortSel.ofSel, h3, State.portWritable]
    · simp only [PortSel.ofSel, h4, State.portWritable]
    · simp only [PortSel.ofSel, h5, State.portWritable]

/-- R65: while busy the host does not write `PAYLOAD`. -/
theorem State.portWritable_payload_busy (hbusy : s.engine ≠ .idle) (hsel : s.port.sel = 0) :
    s.portWritable (PortSel.ofSel s.port.sel) = none := by
  rw [hsel]
  exact if_neg hbusy

/-- One byte written: it reads as written, and every other byte of every buffer as before. -/
theorem State.byteAt_memWrite_singleton (s : State) (b b' : Buffer) (a j : Nat) (x : Byte) :
    (s.memWrite b a [x]).byteAt b' j = if b' = b ∧ j = a then x else s.byteAt b' j := by
  rw [State.byteAt_memWrite]
  by_cases hb : b' = b
  · subst hb
    rcases lt_trichotomy j a with h | rfl | h
    · simp [show ¬ a ≤ j by omega, h.ne]
    · simp
    · simp [h.le, h.ne', show j - a ≠ 0 by omega]
  · simp [hb]

/-- Settles O36: the select names the buffer and whether the host may write it; each clause is a taken or a refused
write. -/
theorem bytePortWrite : Obligations.BytePortWrite := by
  unfold Obligations.BytePortWrite
  rintro s v a rfl
  have hwrite : perform (.hostWrite 0x70 v) s = .next (s.writePort v) := rfl
  rw [hwrite]
  refine ⟨fun b h => ?_, fun h => congrArg Host.Outcome.next (State.writePort_refused v ?_)⟩
  · have htaken : s.portWritable (PortSel.ofSel s.port.sel) = some b ∧
        s.port.addr.toNat < s.portCapacity (PortSel.ofSel s.port.sel) := by
      rcases h with ⟨hsel, rfl, hidle, h⟩ | ⟨hsel, rfl, h⟩ | ⟨hsel, rfl, h⟩ <;> rw [hsel]
      · exact ⟨if_pos hidle, h⟩
      · exact ⟨rfl, h⟩
      · exact ⟨rfl, h⟩
    obtain ⟨hb, haddr⟩ := htaken
    have hbyte := s.byteAt_memWrite_singleton b (a := s.port.addr.toNat) (x := v.extractLsb' 0 8)
    refine ⟨_, congrArg Host.Outcome.next (State.writePort_taken v hb haddr), ?_, fun b' j hother => ?_, rfl⟩
    · rw [BitVec.setWidth_eq_extractLsb' (by decide)]
      exact (hbyte b s.port.addr.toNat).trans (if_pos ⟨rfl, rfl⟩)
    · exact (hbyte b' j).trans (if_neg (by tauto))
  · rcases h with ⟨hsel, hbusy | h⟩ | ⟨hsel | hsel, h⟩ | h
    · exact .inl (State.portWritable_payload_busy hbusy hsel)
    · exact .inr (by rw [hsel]; exact h)
    · exact .inr (by rw [hsel]; exact h)
    · exact .inr (by rw [hsel]; exact h)
    · exact .inl (s.portWritable_of_three_le h)

/-! ## Writing the configuration -/

theorem State.writeConfig_idle (hidle : s.engine = .idle) (f : ConfigRegs → ConfigRegs) :
    s.writeConfig f = { s with cfg := f s.cfg } := if_pos hidle

theorem State.writeConfig_busy (hbusy : s.engine ≠ .idle) (f : ConfigRegs → ConfigRegs) :
    s.writeConfig f = s.hostError := if_neg hbusy

/-- R65: while busy the configuration registers refuse a write. -/
theorem perform_hostWrite_config_busy (hbusy : s.engine ≠ .idle) (v : Word) :
    ∀ n ∈ [0x08, 0x0C, 0x10, 0x14, 0x18], perform (.hostWrite (BitVec.ofNat 8 n) v) s = .next s.hostError := by
  have hrefused := fun f => congrArg (Host.Outcome.next (φ := Fault) (ρ := Refusal)) (State.writeConfig_busy hbusy f)
  simp only [List.forall_mem_cons]
  exact ⟨hrefused _, hrefused _, hrefused _, hrefused _, hrefused _, by simp⟩

/-- Settles O33: the configuration's five offsets, and the port with `PAYLOAD` selected. -/
theorem busyWritesRefused : Obligations.BusyWritesRefused := by
  unfold Obligations.BusyWritesRefused
  intro s off v hbusy
  refine ⟨fun h => ?_, fun hsel => ?_⟩
  · exact forall_offset_of_forall_mem (P := fun off => perform (.hostWrite off v) s = .next s.hostError)
      (perform_hostWrite_config_busy hbusy v) h
  · exact congrArg Host.Outcome.next (State.writePort_refused v (.inl (State.portWritable_payload_busy hbusy hsel)))

/-! ## Writing a register's fields and reading them back -/

/-- The bits of a read-write register that hold its fields (R23 to R27, R42 to R45); the others are res0. -/
def HostReg.fieldMask : HostReg → Word
  | .cfg | .bufSel => 0x7
  | .chunkSize | .maxRetries | .fChecksum => 0xFF
  | .ackTimeout | .fChunkId | .fTotal | .fLen | .msgLen | .ackExpect => 0xFFFF
  | .ackCtrl => 0x1FFFF
  | .payloadLen | .bufAddr => 0xFFFFFF
  | _ => 0

/-- The read-write registers whose fields a host write sets in this state: the configuration in IDLE, the scratch and
port registers in every state (R65). -/
def HostReg.TakesFields (s : State) : HostReg → Prop
  | .cfg | .chunkSize | .maxRetries | .ackTimeout | .payloadLen => s.engine = .idle
  | .fChunkId | .fTotal | .fChecksum | .fLen | .msgLen | .ackCtrl | .ackExpect | .bufSel | .bufAddr => True
  | _ => False

/-- The low bits of a word, with the bits above them 0. -/
theorem setWidth_extractLsb'_zero_eq_and (v : Word) (n : Nat) :
    (v.extractLsb' 0 n).setWidth 32 = v &&& (BitVec.allOnes n).setWidth 32 := by
  ext i hi
  simp [hi, Bool.and_comm]

theorem ofBool_getLsbD (v : Word) (n : Nat) : BitVec.ofBool (v.getLsbD n) = v.extractLsb' n 1 := by
  ext i hi
  obtain rfl : i = 0 := by omega
  simp

theorem Coding.bit_ofBit (b : Bool) : (Coding.ofBit b).bit = BitVec.ofBool b := by cases b <;> rfl

/-- `CFG`'s three fields lie side by side from bit 0 on (R23). -/
theorem cfgFields_eq_extractLsb' (v : Word) :
    BitVec.ofBool (v.getLsbD 2) ++ BitVec.ofBool (v.getLsbD 1) ++ (Coding.ofBit (v.getLsbD 0)).bit =
      v.extractLsb' 0 3 := by
  rw [Coding.bit_ofBit, ofBool_getLsbD, ofBool_getLsbD, ofBool_getLsbD,
    BitVec.extractLsb'_append_extractLsb'_eq_extractLsb' (show 2 = 1 + 1 from rfl),
    BitVec.extractLsb'_append_extractLsb'_eq_extractLsb' (show 1 = 0 + 1 from rfl)]

/-- `ACK_OK` lies above `ACK_ID` (R44). -/
theorem ackCtrlFields_eq_extractLsb' (v : Word) :
    BitVec.ofBool (v.getLsbD 16) ++ v.extractLsb' 0 16 = v.extractLsb' 0 17 := by
  rw [ofBool_getLsbD, BitVec.extractLsb'_append_extractLsb'_eq_extractLsb' (show 16 = 0 + 16 from rfl)]

theorem HostReg.TakesFields.ne_bufData {r : HostReg} (hr : r.TakesFields s) : r ≠ .bufData := by
  rintro rfl
  exact hr

/-- A write that sets fields answers a next state. -/
theorem writeReg_next {r : HostReg} (hr : r.TakesFields s) (v : Word) : ∃ t, writeReg r v s = .next t := by
  cases r with
  | cmd => exact hr.elim
  | _ => exact ⟨_, rfl⟩

/-- A write that sets fields changes the configuration, the scratch or the port registers alone. -/
theorem writeReg_frame {r : HostReg} {v : Word} (hr : r.TakesFields s) (hw : writeReg r v s = .next t) :
    t = { s with cfg := t.cfg, scratch := t.scratch, port := t.port } := by
  cases r with
  | cfg | chunkSize | maxRetries | ackTimeout | payloadLen =>
    rw [writeReg, State.writeConfig_idle hr] at hw
    cases hw
    rfl
  | fChunkId | fTotal | fChecksum | fLen | msgLen | ackCtrl | ackExpect | bufSel | bufAddr =>
    cases hw
    rfl
  | _ => exact hr.elim

/-- Fields written read back with the res0 bits 0 (R62). -/
theorem readReg_writeReg_same {r : HostReg} {v : Word} (hr : r.TakesFields s) (hw : writeReg r v s = .next t) :
    t.readReg r = v &&& r.fieldMask := by
  cases r with
  | cfg =>
    rw [writeReg, State.writeConfig_idle hr] at hw
    cases hw
    exact (congrArg _ (cfgFields_eq_extractLsb' v)).trans (setWidth_extractLsb'_zero_eq_and v 3)
  | chunkSize | maxRetries | ackTimeout | payloadLen =>
    rw [writeReg, State.writeConfig_idle hr] at hw
    cases hw
    exact setWidth_extractLsb'_zero_eq_and v _
  | ackCtrl =>
    cases hw
    exact (congrArg _ (ackCtrlFields_eq_extractLsb' v)).trans (setWidth_extractLsb'_zero_eq_and v 17)
  | fChunkId | fTotal | fChecksum | fLen | msgLen | ackExpect | bufSel | bufAddr =>
    cases hw
    exact setWidth_extractLsb'_zero_eq_and v _
  | _ => exact hr.elim

/-- Writing one register's fields leaves every other register, but for `STATUS.IRQ`, which follows `CFG.IRQ_EN`
(R268). -/
theorem readReg_writeReg_other {r q : HostReg} {v : Word} (hr : r.TakesFields s) (hw : writeReg r v s = .next t)
    (hstatus : q ≠ .status) (hq : q ≠ r) : t.readReg q = s.readReg q := by
  cases r with
  | cfg | chunkSize | maxRetries | ackTimeout | payloadLen =>
    rw [writeReg, State.writeConfig_idle hr] at hw
    cases hw
    cases q <;> first | contradiction | rfl
  | fChunkId | fTotal | fChecksum | fLen | msgLen | ackCtrl | ackExpect | bufSel | bufAddr =>
    cases hw
    cases q <;> first | contradiction | rfl
  | _ => exact hr.elim

/-- The configuration's offsets and field masks (R60, R23 to R27). -/
theorem takesFields_config (hidle : s.engine = .idle) :
    ∀ p ∈ ([(0x08, 0x7), (0x0C, 0xFF), (0x10, 0xFF), (0x14, 0xFFFF), (0x18, 0xFFFFFF)] : List (BitVec 8 × Word)),
      ∃ r, HostReg.ofOffset p.1 = some r ∧ r.TakesFields s ∧ p.2 = r.fieldMask := by
  simp only [List.forall_mem_cons]
  exact
    ⟨⟨.cfg, rfl, hidle, rfl⟩, ⟨.chunkSize, rfl, hidle, rfl⟩, ⟨.maxRetries, rfl, hidle, rfl⟩,
      ⟨.ackTimeout, rfl, hidle, rfl⟩, ⟨.payloadLen, rfl, hidle, rfl⟩, by simp⟩

/-- The offsets and field masks of the scratch and port registers (R60, R42 to R45). -/
theorem takesFields_scratch_port (s : State) :
    ∀ p ∈ ([(0x4C, 0xFFFF), (0x50, 0xFFFF), (0x54, 0xFF), (0x58, 0xFFFF), (0x5C, 0xFFFF), (0x60, 0x1FFFF),
        (0x64, 0xFFFF), (0x68, 0x7), (0x6C, 0xFFFFFF)] : List (BitVec 8 × Word)),
      ∃ r, HostReg.ofOffset p.1 = some r ∧ r.TakesFields s ∧ p.2 = r.fieldMask := by
  simp only [List.forall_mem_cons]
  exact
    ⟨⟨.fChunkId, rfl, trivial, rfl⟩, ⟨.fTotal, rfl, trivial, rfl⟩, ⟨.fChecksum, rfl, trivial, rfl⟩,
      ⟨.fLen, rfl, trivial, rfl⟩, ⟨.msgLen, rfl, trivial, rfl⟩, ⟨.ackCtrl, rfl, trivial, rfl⟩,
      ⟨.ackExpect, rfl, trivial, rfl⟩, ⟨.bufSel, rfl, trivial, rfl⟩, ⟨.bufAddr, rfl, trivial, rfl⟩, by simp⟩

/-- Settles O34: the fields each offset writes, then the three rules of a field write, and write-1-to-clear. -/
theorem writableRegistersReadBack : Obligations.WritableRegistersReadBack := by
  unfold Obligations.WritableRegistersReadBack
  intro s off v mask
  refine ⟨fun hidle => ?_, ?_, fun h => ?_, ?_⟩
  · have hwritten := fun f =>
      congrArg (Host.Outcome.next (φ := Fault) (ρ := Refusal)) (State.writeConfig_idle hidle f)
    simp only [List.forall_mem_cons]
    exact ⟨hwritten _, hwritten _, hwritten _, hwritten _, hwritten _, by simp⟩
  · simp only [List.forall_mem_cons]
    exact ⟨rfl, rfl, rfl, rfl, rfl, rfl, rfl, rfl, rfl, by simp⟩
  · obtain ⟨r, hoff, hr, hmask⟩ : ∃ r, HostReg.ofOffset off = some r ∧ r.TakesFields s ∧ mask = r.fieldMask :=
      h.elim (fun ⟨hmem, hidle⟩ => takesFields_config hidle _ hmem) (takesFields_scratch_port s _)
    obtain ⟨t, hw⟩ := writeReg_next hr v
    refine ⟨t, ?_, ?_, writeReg_frame hr hw, fun q hstatus hq => readReg_writeReg_other hr hw hstatus ?_⟩
    · rw [perform_hostWrite_register hoff, hw]
    · rw [perform_hostRead_register hoff hr.ne_bufData, readReg_writeReg_same hr hw, hmask]
    · rintro rfl
      exact hq hoff
  · rw [BitVec.setWidth_eq_extractLsb' (by decide)]
    rfl

end Sys2Proof.Machine

/-! PROOFS. Canonical decimal (spec/30_encoding.md R86): `dec` writes the canonical spelling of a number, and `parse_dec`
reads that spelling alone. -/

namespace Sys2Proof.Machine

/-! ## Digits -/

theorem digitByte_toNat {d : Nat} (h : d < 10) : (digitByte d).toNat = 0x30 + d := by
  simp only [digitByte, BitVec.toNat_ofNat]
  omega

theorem isDigit_iff {b : Byte} : isDigit b = true ↔ 0x30 ≤ b.toNat ∧ b.toNat ≤ 0x39 := by simp [isDigit]

theorem isDigit_digitByte {d : Nat} (h : d < 10) : isDigit (digitByte d) = true := by
  rw [isDigit_iff, digitByte_toNat h]
  omega

/-- A digit is the spelling of its own value. -/
theorem digitByte_of_isDigit {b : Byte} (h : isDigit b = true) : digitByte (b.toNat - 0x30) = b := by
  rw [isDigit_iff] at h
  apply BitVec.eq_of_toNat_eq
  rw [digitByte_toNat (by omega)]
  omega

@[simp] theorem digitsValue_append_singleton (s : List Byte) (b : Byte) :
    digitsValue (s ++ [b]) = 10 * digitsValue s + (b.toNat - 0x30) := by
  simp [digitsValue]

/-! ## `dec` by its last digit -/

theorem decAux_append (fuel n : Nat) (acc : List Byte) : decAux fuel n acc = decAux fuel n [] ++ acc := by
  induction fuel generalizing n acc with
  | zero => rfl
  | succ fuel ih =>
    simp only [decAux]
    split
    · rfl
    · rw [ih, ih (acc := [_])]
      simp

/-- More fuel than the number changes nothing. -/
theorem decAux_congr_fuel {f g n : Nat} (hf : n < f) (hg : n < g) (acc : List Byte) :
    decAux f n acc = decAux g n acc := by
  induction f generalizing g n acc with
  | zero => omega
  | succ f ih =>
    obtain ⟨g, rfl⟩ : ∃ g', g = g' + 1 := ⟨g - 1, by omega⟩
    simp only [decAux]
    split
    · rfl
    · exact ih (by omega) (by omega) _

theorem dec_of_lt {n : Nat} (h : n < 10) : dec n = [digitByte n] := if_pos h

theorem dec_of_ge {n : Nat} (h : 10 ≤ n) : dec n = dec (n / 10) ++ [digitByte (n % 10)] := by
  have hstep : dec n = decAux n (n / 10) [digitByte (n % 10)] := if_neg (not_lt.mpr h)
  rw [hstep, decAux_append, decAux_congr_fuel (g := n / 10 + 1) (by omega) (by omega)]
  rfl

/-- One more digit behind a number above 0. -/
theorem dec_append_digit {n d : Nat} (hn : n ≠ 0) (hd : d < 10) : dec (10 * n + d) = dec n ++ [digitByte d] := by
  rw [dec_of_ge (by omega), show (10 * n + d) / 10 = n by omega, show (10 * n + d) % 10 = d by omega]

/-- What holds of each digit, and still holds with a digit behind, holds of every decimal. -/
theorem dec_induction {P : Nat → List Byte → Prop} (hdigit : ∀ d, d < 10 → P d [digitByte d])
    (hstep : ∀ n d, n ≠ 0 → d < 10 → P n (dec n) → P (10 * n + d) (dec n ++ [digitByte d])) (n : Nat) :
    P n (dec n) := by
  induction n using Nat.strong_induction_on with
  | h n ih =>
    by_cases hn : n < 10
    · rw [dec_of_lt hn]
      exact hdigit n hn
    · have hlast := hstep (n / 10) (n % 10) (by omega) (by omega) (ih (n / 10) (by omega))
      rwa [← dec_of_ge (not_lt.mp hn), Nat.div_add_mod] at hlast

/-! ## The canonical spelling -/

theorem dec_ne_nil (n : Nat) : dec n ≠ [] :=
  dec_induction (P := fun _ s => s ≠ []) (by simp) (by simp) n

theorem isDigit_of_mem_dec {n : Nat} : ∀ b ∈ dec n, isDigit b = true := by
  refine dec_induction (P := fun _ s => ∀ b ∈ s, isDigit b = true) (fun d hd b hb => ?_)
    (fun m d _ hd ih b hb => ?_) n
  · rw [List.mem_singleton.mp hb]
    exact isDigit_digitByte hd
  · rcases List.mem_append.mp hb with hb | hb
    · exact ih b hb
    · rw [List.mem_singleton.mp hb]
      exact isDigit_digitByte hd

/-- Only zero is spelled with a zero in front. -/
theorem eq_zero_of_head?_dec {n : Nat} : (dec n).head? = some 0x30 → n = 0 := by
  refine dec_induction (P := fun n s => s.head? = some 0x30 → n = 0) (fun d hd h => ?_)
    (fun m d hm _ ih h => ?_) n
  · have hzero : (digitByte d).toNat = 0x30 := by
      rw [List.head?_cons, Option.some.injEq] at h
      rw [h]
      rfl
    rw [digitByte_toNat hd] at hzero
    omega
  · rw [List.head?_append_of_ne_nil _ (dec_ne_nil m)] at h
    exact absurd (ih h) hm

theorem digitsValue_dec (n : Nat) : digitsValue (dec n) = n := by
  refine dec_induction (P := fun n s => digitsValue s = n) (fun d hd => ?_) (fun m d _ hd ih => ?_) n
  · simp [digitsValue, digitByte_toNat hd]
  · simp [ih, digitByte_toNat hd]

/-- The strings `parse_dec` takes for a number, whatever its bound: digits, and no zero in front of another digit (R86). -/
structure CanonicalDecimal (s : List Byte) : Prop where
  ne_nil : s ≠ []
  digits : ∀ b ∈ s, isDigit b = true
  noLeadingZero : 1 < s.length → s.head? ≠ some 0x30

theorem canonicalDecimal_dec (n : Nat) : CanonicalDecimal (dec n) where
  ne_nil := dec_ne_nil n
  digits := isDigit_of_mem_dec
  noLeadingZero hlen hhead := by
    rw [eq_zero_of_head?_dec hhead] at hlen
    exact absurd hlen (by decide)

/-- A canonical decimal without its last digit is one, and no zero. -/
theorem CanonicalDecimal.of_append_singleton {s : List Byte} {b : Byte} (h : CanonicalDecimal (s ++ [b]))
    (hs : s ≠ []) : CanonicalDecimal s ∧ s.head? ≠ some 0x30 := by
  have hhead : s.head? ≠ some 0x30 := by
    have := h.noLeadingZero (by simpa using List.length_pos_of_ne_nil hs)
    rwa [List.head?_append_of_ne_nil _ hs] at this
  exact ⟨⟨hs, fun c hc => h.digits c (List.mem_append_left _ hc), fun _ => hhead⟩, hhead⟩

/-- A number has one canonical spelling. -/
theorem CanonicalDecimal.dec_digitsValue {s : List Byte} (h : CanonicalDecimal s) : dec (digitsValue s) = s := by
  induction s using List.reverseRecOn with
  | nil => exact absurd rfl h.ne_nil
  | append_singleton s b ih =>
    have hb : isDigit b = true := h.digits b (by simp)
    have hd : b.toNat - 0x30 < 10 := by rw [isDigit_iff] at hb; omega
    rw [digitsValue_append_singleton]
    by_cases hs : s = []
    · subst hs
      simp [digitsValue, dec_of_lt hd, digitByte_of_isDigit hb]
    · obtain ⟨hcanon, hhead⟩ := h.of_append_singleton hs
      have hv : digitsValue s ≠ 0 := fun hv => hhead (by rw [← ih hcanon, hv]; rfl)
      rw [dec_append_digit hv hd, ih hcanon, digitByte_of_isDigit hb]

/-! ## `parse_dec` -/

/-- The four checks of `parse_dec` (R86). -/
theorem parseDec_eq_some_iff_canonical {s : List Byte} {maxv n : Nat} :
    parseDec s maxv = some n ↔ CanonicalDecimal s ∧ digitsValue s = n ∧ n ≤ maxv := by
  have hcanon : CanonicalDecimal s ↔
      ¬ s.length = 0 ∧ ¬ (!s.all isDigit) = true ∧ ¬ (1 < s.length ∧ s.head? = some 0x30) := by
    simp only [List.length_eq_zero_iff, Bool.not_eq_true', Bool.not_eq_false, List.all_eq_true, not_and]
    exact ⟨fun h => ⟨h.ne_nil, h.digits, h.noLeadingZero⟩, fun ⟨h1, h2, h3⟩ => ⟨h1, h2, h3⟩⟩
  simp only [hcanon, parseDec, Option.ite_none_left_eq_some, Option.some.injEq, and_assoc, gt_iff_lt, not_lt]
  refine and_congr_right' (and_congr_right' (and_congr_right' ?_))
  rw [and_comm]
  exact and_congr_right fun h => h ▸ Iff.rfl

/-- `parse_dec` accepts `dec n` alone, up to its bound. -/
theorem parseDec_eq_some_iff {s : List Byte} {maxv n : Nat} : parseDec s maxv = some n ↔ s = dec n ∧ n ≤ maxv := by
  rw [parseDec_eq_some_iff_canonical]
  constructor
  · rintro ⟨hs, rfl, hn⟩
    exact ⟨hs.dec_digitsValue.symm, hn⟩
  · rintro ⟨rfl, hn⟩
    exact ⟨canonicalDecimal_dec n, digitsValue_dec n, hn⟩

theorem parseDec_dec {n maxv : Nat} (h : n ≤ maxv) : parseDec (dec n) maxv = some n :=
  parseDec_eq_some_iff.mpr ⟨rfl, h⟩

/-- Settles O47: `dec` is the canonical spelling, and a number has no other. -/
theorem parseDecAcceptsExactlyDec : Obligations.ParseDecAcceptsExactlyDec := by
  unfold Obligations.ParseDecAcceptsExactlyDec
  refine ⟨fun n => ?_, fun x n maxv => parseDec_eq_some_iff⟩
  obtain ⟨hne, hdigits, hzero⟩ := canonicalDecimal_dec n
  exact ⟨hne, fun b hb => isDigit_iff.mp (hdigits b hb), hzero, digitsValue_dec n⟩

end Sys2Proof.Machine

/-! PROOFS. The command word (spec/30_encoding.md R80 to R82): which words are commands, and what refusing one does. -/

namespace Sys2Proof.Machine

/-! ## Words and commands -/

/-- Every command's word is as R80 says, command by command. -/
theorem commandWord_statement (i : Instr) : Laws.CommandWord.Statement i := by
  cases i with
  | nop => exact Laws.CommandWord.nop
  | startSend => exact Laws.CommandWord.startSend
  | startRecv => exact Laws.CommandWord.startRecv
  | abort => exact Laws.CommandWord.abort
  | clear => exact Laws.CommandWord.clear
  | opChecksum => exact Laws.CommandWord.opChecksum
  | opEncode => exact Laws.CommandWord.opEncode
  | opDecode => exact Laws.CommandWord.opDecode
  | opFragment => exact Laws.CommandWord.opFragment
  | opEncAck => exact Laws.CommandWord.opEncAck
  | opDecAck => exact Laws.CommandWord.opDecAck
  | opEncSentinel => exact Laws.CommandWord.opEncSentinel
  | opIsSentinel => exact Laws.CommandWord.opIsSentinel

theorem decodeWord_encode (i : Instr) : decodeWord (encode i) = .ok i := by
  obtain ⟨-, -, -, hdecode⟩ := commandWord_statement i
  exact hdecode

/-- The opcode map lists each OPCODE under its own command (R81). -/
theorem opcode_of_decodeOpcode {op : BitVec 8} {i : Instr} (h : decodeOpcode op = some i) : i.opcode = op := by
  apply BitVec.eq_of_toNat_eq
  unfold decodeOpcode at h
  split at h
  case h_14 => cases h
  all_goals
    rename_i hop
    cases h
    exact hop.symm

/-- A word with bits 31:8 zero is its low byte, widened. -/
theorem eq_setWidth_of_high_zero {v : Word} (h : v.extractLsb' 8 24 = 0#24) :
    v = (v.extractLsb' 0 8).setWidth 32 := by
  have happend : v.extractLsb' 8 24 ++ v.extractLsb' 0 8 = v := by
    rw [BitVec.extractLsb'_append_extractLsb'_eq_extractLsb' (show 8 = 0 + 8 from rfl)]
    exact BitVec.extractLsb'_eq_self
  rw [h] at happend
  exact happend.symm.trans (setWidth_eq_zero_append _).symm

/-- All that the decoder does with a word (R80 to R82). -/
theorem decodeWord_cases (v : Word) :
    (v.extractLsb' 8 24 ≠ 0#24 ∧ decodeWord v = .error .reservedBitsSet) ∨
    (v.extractLsb' 8 24 = 0#24 ∧ decodeOpcode (v.extractLsb' 0 8) = none ∧
      decodeWord v = .error .unassignedOpcode) ∨
    ∃ i : Instr, v = encode i ∧ decodeWord v = .ok i := by
  by_cases hhigh : v.extractLsb' 8 24 = 0#24
  · refine .inr ?_
    cases hlow : decodeOpcode (v.extractLsb' 0 8) with
    | none => exact .inl ⟨hhigh, rfl, by simp [decodeWord, hhigh, hlow]⟩
    | some i =>
      have hv : v = encode i := by
        rw [eq_setWidth_of_high_zero hhigh, ← opcode_of_decodeOpcode hlow]
        rfl
      exact .inr ⟨i, hv, hv ▸ decodeWord_encode i⟩
  · exact .inl ⟨hhigh, if_pos hhigh⟩

/-- Settles O3: the decoder reads back what `encode` writes, and takes no other word for a command. -/
theorem wordIsCommandExactlyAsEncoded : Obligations.WordIsCommandExactlyAsEncoded := by
  unfold Obligations.WordIsCommandExactlyAsEncoded
  refine fun v i => ⟨fun h => ?_, fun h => h ▸ decodeWord_encode i⟩
  rcases decodeWord_cases v with ⟨-, hv⟩ | ⟨-, -, hv⟩ | ⟨j, rfl, hj⟩
  · rw [hv] at h
    cases h
  · rw [hv] at h
    cases h
  · rw [hj] at h
    cases h
    rfl

/-- Settles O2: a command's word is its encoding; the other words have an unassigned low byte or a bit above it. -/
theorem commandWordsDecode : Obligations.CommandWordsDecode :=
  ⟨decodeWord_encode .nop, decodeWord_encode .startSend, decodeWord_encode .startRecv, decodeWord_encode .abort,
    decodeWord_encode .clear, decodeWord_encode .opChecksum, decodeWord_encode .opEncode, decodeWord_encode .opDecode,
    decodeWord_encode .opFragment, decodeWord_encode .opEncAck, decodeWord_encode .opDecAck,
    decodeWord_encode .opEncSentinel, decodeWord_encode .opIsSentinel, rfl, rfl, rfl, rfl, rfl⟩

/-! ## Refused commands -/

/-- R82: the write of a word that is no command is refused. -/
theorem perform_commandWrite_error {v : Word} {e : DecodeError} (hv : decodeWord v = .error e) (s : State) :
    perform (commandWrite v) s = .next s.refuseCommand := by
  change issueCommand v s = _
  rw [issueCommand, hv]

/-- R82: while a session runs every command but `NOP` and `ABORT` is refused. -/
theorem exec_busy {i : Instr} {s : State} (hbusy : s.engine ≠ .idle) (hnop : i ≠ .nop) (habort : i ≠ .abort) :
    exec i s = .next s.refuseCommand := by
  cases i with
  | nop => contradiction
  | abort => contradiction
  | _ => exact State.whenIdle_busy hbusy _

/-- A word with reserved bits set or with an OPCODE of no command does not decode. -/
theorem decodeWord_error {v : Word}
    (h : v.extractLsb' 8 24 ≠ 0#24 ∨ ∀ i : Instr, i.opcode ≠ v.extractLsb' 0 8) :
    ∃ e, decodeWord v = .error e := by
  rcases decodeWord_cases v with ⟨-, hv⟩ | ⟨-, -, hv⟩ | ⟨i, rfl, -⟩
  · exact ⟨_, hv⟩
  · exact ⟨_, hv⟩
  · obtain ⟨-, hlow, hhigh, -⟩ := commandWord_statement i
    exact h.elim (absurd hhigh) fun h => absurd hlow.symm (h i)

/-- Settles O4: the word does not decode, or its command is refused while busy. -/
theorem refusedCommandSetsCmdErrOnly : Obligations.RefusedCommandSetsCmdErrOnly := by
  unfold Obligations.RefusedCommandSetsCmdErrOnly
  intro s rest v hinputs h
  rw [step_of_input hinputs]
  suffices hrefused : perform (commandWrite v) { s with inputs := rest, reply := none } =
      .next (State.refuseCommand { s with inputs := rest, reply := none }) from hrefused
  rw [← or_assoc] at h
  rcases h with h | ⟨hbusy, i, hnop, habort, rfl⟩
  · obtain ⟨e, he⟩ := decodeWord_error h
    exact perform_commandWrite_error he _
  · rw [perform_commandWrite (decodeWord_encode i), exec_busy (by exact hbusy) hnop habort]

end Sys2Proof.Machine

/-! PROOFS. Messages and their fields (spec/30_encoding.md R85 to R92, spec/40_codec.md R113 to R115, spec/41_ack.md R141 to
R143): what the codings write and read, cutting a message at the delimiter, and one rule each for `encode`, `decode` and
`parse_ack`. -/

namespace Sys2Proof.Machine

/-! ## HEX data (R88) -/

theorem hexByte_toNat (n : BitVec 4) :
    (hexByte n).toNat = if n.toNat < 10 then 0x30 + n.toNat else 0x37 + n.toNat := by
  unfold hexByte
  split <;> simp only [BitVec.toNat_ofNat] <;> omega

@[simp] theorem hexValue_hexByte (n : BitVec 4) : hexValue (hexByte n) = some n := by
  have hn : ∀ k, k = n.toNat → some (BitVec.ofNat 4 k) = some n := by
    rintro _ rfl
    simp
  simp only [hexValue, hexByte_toNat]
  by_cases h : n.toNat < 10
  · rw [if_pos h, if_pos (by omega)]
    exact hn _ (by omega)
  · rw [if_neg h, if_neg (by omega), if_pos (by omega)]
    exact hn _ (by omega)

theorem upperHexDigit_toNat (b : Byte) :
    (upperHexDigit b).toNat = if 0x61 ≤ b.toNat ∧ b.toNat ≤ 0x66 then b.toNat - 0x20 else b.toNat := by
  unfold upperHexDigit
  split
  · bv_omega
  · rfl

/-- A byte below `'a'` is in upper case already. -/
theorem upperHexDigit_of_lt {b : Byte} (h : b.toNat < 0x61) : upperHexDigit b = b :=
  if_neg (by omega)

/-- A hexadecimal digit of either case, written again, is in upper case. -/
theorem hexByte_of_hexValue {b : Byte} {n : BitVec 4} (h : hexValue b = some n) : hexByte n = upperHexDigit b := by
  apply BitVec.eq_of_toNat_eq
  rw [hexByte_toNat, upperHexDigit_toNat]
  simp only [hexValue] at h
  split_ifs at h
  all_goals
    obtain rfl := Option.some.inj h
    simp only [BitVec.toNat_ofNat]
    split_ifs <;> omega

theorem append_nibbles (b : Byte) : b.extractLsb' 4 4 ++ b.extractLsb' 0 4 = b := by
  rw [BitVec.extractLsb'_append_extractLsb'_eq_extractLsb' (show 4 = 0 + 4 from rfl)]
  exact BitVec.extractLsb'_eq_self

theorem nibbles_append (a b : BitVec 4) : (a ++ b).extractLsb' 4 4 = a ∧ (a ++ b).extractLsb' 0 4 = b :=
  ⟨BitVec.extractLsb'_append_eq_left, BitVec.extractLsb'_append_eq_right⟩

@[simp] theorem codedHex_length (d : List Byte) : (codedHex d).length = 2 * d.length := by
  induction d with
  | nil => rfl
  | cons b t ih => simp only [codedHex, List.length_cons, ih]; omega

@[simp] theorem uncodedHex_codedHex (d : List Byte) : uncodedHex (codedHex d) = some d := by
  induction d with
  | nil => rfl
  | cons b t ih => simp [codedHex, uncodedHex, ih, append_nibbles]

/-- A field HEX takes, written again, is the field in upper case; and no byte of it is a delimiter. -/
theorem codedHex_of_uncodedHex {f d : List Byte} (h : uncodedHex f = some d) :
    codedHex d = f.map upperHexDigit ∧ bar ∉ f := by
  induction f using uncodedHex.induct generalizing d with
  | case1 =>
    cases h
    exact ⟨rfl, List.not_mem_nil⟩
  | case2 b => cases h
  | case3 hi lo t a b d' ht hlo hhi ih =>
    simp only [uncodedHex, hhi, hlo, ht, Option.some.injEq] at h
    subst h
    obtain ⟨hcoded, hbar⟩ := ih ht
    have hne : ∀ {c : Byte} {n : BitVec 4}, hexValue c = some n → bar ≠ c := by
      rintro c n hc rfl
      cases hc
    exact ⟨by simp [codedHex, nibbles_append, hcoded, hexByte_of_hexValue hhi, hexByte_of_hexValue hlo],
      by simp [hne hhi, hne hlo, hbar]⟩
  | case4 hi lo t hnone => simp_all [uncodedHex]

/-! ## Data under both codings (R88) -/

/-- Data a coding can carry: TEXT carries safe bytes only. -/
def Carried (c : Coding) (d : List Byte) : Prop := c = .text → d.all isSafe = true

/-- A coding reads back what it writes. -/
theorem uncoded_coded {c : Coding} {d : List Byte} (h : Carried c d) : uncoded c (coded c d) = some d := by
  cases c with
  | text => exact if_pos (h rfl)
  | hex => exact uncodedHex_codedHex d

/-- The one spelling of a field under each coding: itself under TEXT, its upper case under HEX (R115). -/
def normalField (c : Coding) (f : List Byte) : List Byte :=
  match c with
  | .text => f
  | .hex => f.map upperHexDigit

/-- All that reading a field says: its data is carried, written again it is the field but for the case of its digits,
and the field holds no delimiter. -/
theorem coded_of_uncoded {c : Coding} {f d : List Byte} (h : uncoded c f = some d) :
    Carried c d ∧ coded c d = normalField c f ∧ bar ∉ f := by
  cases c with
  | text =>
    simp only [uncoded, Option.ite_none_right_eq_some, Option.some.injEq] at h
    obtain ⟨hsafe, rfl⟩ := h
    exact ⟨fun _ => hsafe, rfl, fun hbar => absurd (List.all_eq_true.mp hsafe bar hbar) (by decide)⟩
  | hex =>
    obtain ⟨hcoded, hbar⟩ := codedHex_of_uncodedHex h
    exact ⟨nofun, hcoded, hbar⟩

theorem coded_length (c : Coding) (d : List Byte) :
    (coded c d).length = if c = .text then d.length else 2 * d.length := by
  cases c with
  | text => rfl
  | hex => exact codedHex_length d

theorem bar_notMem_coded {c : Coding} {d : List Byte} (h : Carried c d) : bar ∉ coded c d := by
  obtain ⟨-, -, hbar⟩ := coded_of_uncoded (uncoded_coded h)
  exact hbar

/-! ## Cutting a message at its delimiters -/

theorem bar_notMem_dec (n : Nat) : bar ∉ dec n := fun h => absurd (isDigit_of_mem_dec bar h) (by decide)

theorem bar_notMem_ackToken (ok : Bool) : bar ∉ ackToken ok := by cases ok <;> decide

theorem intercalate_split (c : Byte) (m : List Byte) : [c].intercalate (split c m) = m := by
  induction m with
  | nil => rfl
  | cons b t ih =>
    obtain ⟨p, ps, hs⟩ := List.exists_cons_of_ne_nil (split_ne_nil c t)
    rw [hs] at ih
    by_cases h : b = c
    · simp [split, h, hs, ih]
    · cases ps with
      | nil => simpa [split, h, hs] using ih
      | cons q qs => simpa [split, h, hs] using ih

theorem split_fourFields {f1 f2 f3 f4 : List Byte} (h1 : bar ∉ f1) (h2 : bar ∉ f2) (h3 : bar ∉ f3) (h4 : bar ∉ f4) :
    split bar (fourFields f1 f2 f3 f4) = [f1, f2, f3, f4] := by
  have hm : fourFields f1 f2 f3 f4 = f1 ++ bar :: (f2 ++ bar :: (f3 ++ bar :: f4)) := by simp [fourFields, bar]
  rw [hm, split_append h1, split_append h2, split_append h3, split_of_not_mem h4]

theorem eq_fourFields_of_split {m f1 f2 f3 f4 : List Byte} (h : split bar m = [f1, f2, f3, f4]) :
    m = fourFields f1 f2 f3 f4 := by
  rw [← intercalate_split bar m, h]
  simp [fourFields, bar]

theorem count_bar_of_split {m : List Byte} {fs : List (List Byte)} (h : split bar m = fs) :
    m.count bar + 1 = fs.length := by
  rw [← h, split_length]

theorem split_ackMsg (id : BitVec 16) (ok : Bool) : split bar (ackMsg id ok) = [ackToken ok, dec id.toNat] := by
  rw [ackMsg, List.append_assoc, List.singleton_append, split_append (bar_notMem_ackToken ok),
    split_of_not_mem (bar_notMem_dec id.toNat)]

/-! ## `encode` and `decode` -/

/-- The message of a frame whose fourth field is already written (R85). -/
def frameWith (F : Frame) (f : List Byte) : List Byte :=
  fourFields (dec F.chunkId.toNat) (dec F.totalChunks.toNat) (dec F.checksum.toNat) f

theorem frameMsg_eq_frameWith (F : Frame) (c : Coding) : frameMsg F c = frameWith F (coded c F.data) := rfl

theorem split_frameWith (F : Frame) {f : List Byte} (h : bar ∉ f) :
    split bar (frameWith F f) = [dec F.chunkId.toNat, dec F.totalChunks.toNat, dec F.checksum.toNat, f] :=
  split_fourFields (bar_notMem_dec _) (bar_notMem_dec _) (bar_notMem_dec _) h

/-- R113: `encode` answers the frame's message when the coding carries its data and the message fits. -/
theorem encodeFrame_eq_ok_iff {P : Nat} {F : Frame} {c : Coding} {m : List Byte} :
    encodeFrame P F c = .ok m ↔ Carried c F.data ∧ m.length ≤ P ∧ m = frameMsg F c := by
  have hcarried : Carried c F.data ↔ ¬ (c = .text ∧ (!F.data.all isSafe) = true) := by simp [Carried]
  rw [hcarried, encodeFrame]
  split_ifs with hsafe hlen
  · simp [hsafe]
  · simp only [false_iff, not_and]
    rintro - hle rfl
    exact absurd hlen (not_lt.mpr hle)
  · simp only [Except.ok.injEq, hsafe, not_false_eq_true, true_and]
    exact ⟨fun h => h ▸ ⟨not_lt.mp hlen, rfl⟩, fun ⟨_, h⟩ => h.symm⟩

/-- The field of a `w`-bit number, as `parse_dec` reads it. -/
theorem ofNat_of_parseDec {w n : Nat} {f : List Byte} (h : parseDec f (2 ^ w - 1) = some n) :
    f = dec (BitVec.ofNat w n).toNat := by
  obtain ⟨rfl, hn⟩ := parseDec_eq_some_iff.mp h
  rw [BitVec.toNat_ofNat, Nat.mod_eq_of_lt (by have := Nat.two_pow_pos w; omega)]

/-- R114: four fields make a frame when the first three are its numbers in canonical decimal and the fourth carries its
data. -/
theorem decodeFields_eq_ok_iff {f1 f2 f3 f4 : List Byte} {c : Coding} {F : Frame} :
    decodeFields f1 f2 f3 f4 c = .ok F ↔
      f1 = dec F.chunkId.toNat ∧ f2 = dec F.totalChunks.toNat ∧ f3 = dec F.checksum.toNat ∧
        uncoded c f4 = some F.data := by
  constructor
  · intro h
    unfold decodeFields at h
    split at h
    · cases h
    · rename_i id hid
      split at h
      · cases h
      · rename_i total htotal
        split at h
        · cases h
        · rename_i cs hcs
          split at h
          · cases h
          · rename_i d hd
            cases h
            exact ⟨ofNat_of_parseDec hid, ofNat_of_parseDec htotal, ofNat_of_parseDec hcs, hd⟩
  · rintro ⟨rfl, rfl, rfl, hd⟩
    have hid := parseDec_dec (n := F.chunkId.toNat) (maxv := 65535) (by omega)
    have htotal := parseDec_dec (n := F.totalChunks.toNat) (maxv := 65535) (by omega)
    have hcs := parseDec_dec (n := F.checksum.toNat) (maxv := 255) (by omega)
    simp [decodeFields, hid, htotal, hcs, hd]

/-- A message of four fields decodes by its fields. -/
theorem decodeFrame_of_split {P : Nat} {m f1 f2 f3 f4 : List Byte} (hlen : m.length ≤ P)
    (hsplit : split bar m = [f1, f2, f3, f4]) (c : Coding) : decodeFrame P m c = decodeFields f1 f2 f3 f4 c := by
  have hcount : m.count bar = 3 := by simpa using count_bar_of_split hsplit
  rw [decodeFrame, if_neg (not_lt.mpr hlen), if_neg (not_not.mpr hcount), hsplit]

/-- A message that decodes fits the transport and has four fields. -/
theorem split_of_decodeFrame {P : Nat} {m : List Byte} {c : Coding} {F : Frame} (h : decodeFrame P m c = .ok F) :
    m.length ≤ P ∧ ∃ f1 f2 f3 f4, split bar m = [f1, f2, f3, f4] := by
  refine ⟨(decodeFrame_length_le h).1, ?_⟩
  unfold decodeFrame at h
  split_ifs at h
  split at h
  · exact ⟨_, _, _, _, ‹_›⟩
  · cases h

/-- R114: the messages `decode` takes for a frame. -/
theorem decodeFrame_eq_ok_iff {P : Nat} {m : List Byte} {c : Coding} {F : Frame} :
    decodeFrame P m c = .ok F ↔ m.length ≤ P ∧ ∃ f, uncoded c f = some F.data ∧ m = frameWith F f := by
  constructor
  · intro h
    obtain ⟨hlen, f1, f2, f3, f4, hsplit⟩ := split_of_decodeFrame h
    rw [decodeFrame_of_split hlen hsplit, decodeFields_eq_ok_iff] at h
    obtain ⟨rfl, rfl, rfl, hd⟩ := h
    exact ⟨hlen, f4, hd, eq_fourFields_of_split hsplit⟩
  · rintro ⟨hlen, f, hd, rfl⟩
    obtain ⟨-, -, hbar⟩ := coded_of_uncoded hd
    rw [decodeFrame_of_split hlen (split_frameWith F hbar), decodeFields_eq_ok_iff]
    exact ⟨rfl, rfl, rfl, hd⟩

/-- Settles O50: the encoded message carries the frame's fields, and the coding reads back its data. -/
theorem decodeOfEncodeIsTheFrame : Obligations.DecodeOfEncodeIsTheFrame := by
  unfold Obligations.DecodeOfEncodeIsTheFrame
  intro P F c m h
  obtain ⟨hcarried, hlen, rfl⟩ := encodeFrame_eq_ok_iff.mp h
  exact decodeFrame_eq_ok_iff.mpr ⟨hlen, coded c F.data, uncoded_coded hcarried, frameMsg_eq_frameWith F c⟩

/-- A decoded frame, encoded again, is the message with its data field in the coding's one spelling. -/
theorem encodeFrame_of_decodeFrame {P : Nat} {m : List Byte} {c : Coding} {F : Frame}
    (h : decodeFrame P m c = .ok F) :
    ∃ f, m = frameWith F f ∧ encodeFrame P F c = .ok (frameWith F (normalField c f)) := by
  obtain ⟨hlen, f, hd, rfl⟩ := decodeFrame_eq_ok_iff.mp h
  obtain ⟨hcarried, hcoded, -⟩ := coded_of_uncoded hd
  refine ⟨f, rfl, encodeFrame_eq_ok_iff.mpr ⟨hcarried, ?_, by rw [frameMsg_eq_frameWith, hcoded]⟩⟩
  have hnormal : (normalField c f).length = f.length := by
    cases c with
    | text => rfl
    | hex => exact List.length_map _
  simpa [frameWith, fourFields, hnormal] using hlen

theorem map_upperHexDigit_dec (n : Nat) : (dec n).map upperHexDigit = dec n :=
  (List.map_congr_left fun b hb =>
    upperHexDigit_of_lt (by have := isDigit_iff.mp (isDigit_of_mem_dec b hb); omega)).trans (List.map_id _)

/-- The numbers and the delimiters of a frame's message have no case. -/
theorem map_upperHexDigit_frameWith (F : Frame) (f : List Byte) :
    (frameWith F f).map upperHexDigit = frameWith F (f.map upperHexDigit) := by
  have hbar : upperHexDigit 0x7C = 0x7C := rfl
  simp only [frameWith, fourFields, List.map_append, map_upperHexDigit_dec, List.map_cons, List.map_nil, hbar]

/-- Settles O51: only the data field has more than one spelling, and under HEX they differ in case alone. -/
theorem encodeOfDecodeIsTheMessage : Obligations.EncodeOfDecodeIsTheMessage := by
  unfold Obligations.EncodeOfDecodeIsTheMessage
  refine fun P m F => ⟨fun h => ?_, fun h => ?_⟩
  · obtain ⟨f, rfl, henc⟩ := encodeFrame_of_decodeFrame h
    exact henc
  · obtain ⟨f, rfl, henc⟩ := encodeFrame_of_decodeFrame h
    rw [map_upperHexDigit_frameWith]
    exact henc

/-! ## Acknowledgements -/

theorem ackMsg_length (id : BitVec 16) (ok : Bool) : (ackMsg id ok).length = 4 + (dec id.toNat).length := by
  simp only [ackMsg, List.length_append, ackToken_length, List.length_singleton]

/-- R141: the messages `parse_ack` takes are the acknowledgements, each for its own id and kind. -/
theorem parseAck_eq_some_iff {P : Nat} (hP : 16 ≤ P) {m : List Byte} {ok : Bool} {id : BitVec 16} :
    parseAck P m = some (ok, id) ↔ m = ackMsg id ok := by
  constructor
  · intro h
    unfold parseAck at h
    split_ifs at h
    split at h
    · rename_i k f hsplit
      have hm : m = k ++ [bar] ++ f := by
        rw [← intercalate_split bar m, hsplit]
        simp
      split_ifs at h with hack herr
      all_goals
        obtain ⟨n, hn, heq⟩ := Option.map_eq_some_iff.mp h
        cases heq
        rw [hm, ackMsg, ← ofNat_of_parseDec (w := 16) hn]
      · rw [hack]
      · rw [herr]
    · cases h
  · rintro rfl
    have hlen : ¬ (ackMsg id ok).length > P := by have := ackMsg_length_le id ok; omega
    have hcount : (ackMsg id ok).count bar = 1 := by simpa using count_bar_of_split (split_ackMsg id ok)
    have hid := parseDec_dec (n := id.toNat) (maxv := 65535) (by omega)
    have htoken : ackToken false ≠ ackToken true := by decide
    rw [parseAck, if_neg hlen, if_neg (not_not.mpr hcount), split_ackMsg]
    cases ok <;> simp [hid, htoken]

/-- Settles O48: the three answers of the matcher, by what `parse_ack` says of the message. -/
theorem matcherMatchesExactlyAwaitedAck : Obligations.MatcherMatchesExactlyAwaitedAck := by
  unfold Obligations.MatcherMatchesExactlyAwaitedAck
  intro P m e ok hP
  simp only [ne_eq, ← parseAck_eq_some_iff hP, decodeAck]
  cases hparse : parseAck P m with
  | none => simp
  | some ack =>
    obtain ⟨k, id⟩ := ack
    by_cases hid : id = e
    · simp [hid]
    · simp [hid]

/-! ## The three kinds of message -/

/-- Settles O53: the fields a message is cut into tell its delimiters, and their lengths its length. -/
theorem messageKindsAndLengths : Obligations.MessageKindsAndLengths := by
  unfold Obligations.MessageKindsAndLengths
  refine ⟨fun P F c m h => ?_, fun n ok => ?_, rfl, rfl⟩
  · obtain ⟨hcarried, -, rfl⟩ := encodeFrame_eq_ok_iff.mp h
    have hsplit := split_frameWith F (bar_notMem_coded hcarried)
    rw [frameMsg_eq_frameWith, ← coded_length]
    refine ⟨by simpa using count_bar_of_split hsplit, ?_⟩
    simp only [frameWith, fourFields, List.length_append, List.length_singleton]
    omega
  · have hdigits := List.length_pos_of_ne_nil (dec_ne_nil n.toNat)
    have hle := ackMsg_length_le n ok
    rw [ackMsg_length] at hle ⊢
    exact ⟨by simpa using count_bar_of_split (split_ackMsg n ok), rfl, by omega, hle⟩

end Sys2Proof.Machine

/-! PROOFS. The pure functions on data (spec/40_codec.md R110, R111, R116, R117): the checksum as a sum in a byte's own
arithmetic, and the chunks a payload is cut into. -/

namespace Sys2Proof.Machine

/-! ## The checksum (R110, R111) -/

/-- Reducing modulo 256 at the end is adding in the byte's own arithmetic. -/
@[simp] theorem checksum_cons (b : Byte) (d : List Byte) : checksum (b :: d) = b + checksum d := by
  apply BitVec.eq_of_toNat_eq
  simp [checksum]

@[simp] theorem checksum_append (p q : List Byte) : checksum (p ++ q) = checksum p + checksum q := by
  induction p with
  | nil => exact (BitVec.zero_add _).symm
  | cons b p ih => rw [List.cons_append, checksum_cons, checksum_cons, ih, BitVec.add_assoc]

/-- Settles O49: the sums differ by the difference of the two bytes. -/
theorem checksumDetectsOneByteChange : Obligations.ChecksumDetectsOneByteChange := by
  unfold Obligations.ChecksumDetectsOneByteChange
  intro p q x y hne heq
  simp only [checksum_append, checksum_cons, BitVec.add_right_inj, BitVec.add_left_inj] at heq
  exact hne heq

/-! ## The chunks of a payload (R116, R117) -/

/-- `k` chunks are enough exactly when `k * S` bytes are. -/
theorem chunkCount_le_iff {len S k : Nat} (hS : 1 ≤ S) : chunkCount len S ≤ k ↔ len ≤ k * S := by
  rw [chunkCount, ← Nat.ceilDiv_eq_add_pred_div, ceilDiv_le_iff_le_mul hS, Nat.mul_comm]

theorem lt_chunkCount_iff {len S k : Nat} (hS : 1 ≤ S) : k < chunkCount len S ↔ k * S < len := by
  rw [← not_le, chunkCount_le_iff hS, not_le]

theorem chunkOf_length (P : List Byte) (S k : Nat) : (chunkOf P S k).length = min S (P.length - k * S) := by
  simp [chunkOf]

/-- The first `k` chunks are the first `k * S` bytes. -/
theorem flatMap_chunkOf_range (P : List Byte) (S k : Nat) : (List.range k).flatMap (chunkOf P S) = P.take (k * S) := by
  induction k with
  | zero => simp
  | succ k ih =>
    rw [List.range_succ, List.flatMap_append, ih, List.flatMap_singleton, chunkOf, ← List.take_add, Nat.succ_mul]

theorem flatMap_chunkOf_range_chunkCount (P : List Byte) {S : Nat} (hS : 1 ≤ S) :
    (List.range (chunkCount P.length S)).flatMap (chunkOf P S) = P := by
  rw [flatMap_chunkOf_range, List.take_of_length_le ((chunkCount_le_iff hS).mp le_rfl)]

@[simp] theorem fragment_length (P : List Byte) (S : Nat) : (fragment P S).length = chunkCount P.length S := by
  simp [fragment]

theorem fragment_getElem?_eq_some_iff {P : List Byte} {S k : Nat} {F : Frame} :
    (fragment P S)[k]? = some F ↔
      k < chunkCount P.length S ∧ F = makeFrame k (chunkCount P.length S) (chunkOf P S k) := by
  constructor
  · intro h
    have hk : k < chunkCount P.length S := by simpa using (List.getElem?_eq_some_iff.mp h).1
    rw [fragment_getElem? hk] at h
    exact ⟨hk, (Option.some.inj h).symm⟩
  · rintro ⟨hk, rfl⟩
    exact fragment_getElem? hk

/-- A frame's numbers are those it is made of, up to the width of its registers. -/
theorem makeFrame_toNat {k n : Nat} (hk : k < n) (hn : n ≤ 65535) (d : List Byte) :
    (makeFrame k n d).chunkId.toNat = k ∧ (makeFrame k n d).totalChunks.toNat = n := by
  simp only [makeFrame, BitVec.toNat_ofNat]
  omega

theorem flatMap_data_fragment (P : List Byte) (S : Nat) :
    (fragment P S).flatMap (fun F => F.data) = (List.range (chunkCount P.length S)).flatMap (chunkOf P S) := by
  simp [fragment, List.flatMap_map, makeFrame]

/-- Settles O52: chunk by chunk; all but the last end within the payload. -/
theorem fragmentsPutThePayloadTogether : Obligations.FragmentsPutThePayloadTogether := by
  unfold Obligations.FragmentsPutThePayloadTogether
  intro P S n _ hS hcount hn
  obtain rfl : n = chunkCount P.length S := hcount
  refine ⟨fragment_length P S, ?_, fun k F hF => ?_⟩
  · rw [flatMap_data_fragment, flatMap_chunkOf_range_chunkCount P hS]
  · obtain ⟨hk, rfl⟩ := fragment_getElem?_eq_some_iff.mp hF
    obtain ⟨hid, htotal⟩ := makeFrame_toNat hk hn (chunkOf P S k)
    have hlength : (makeFrame k (chunkCount P.length S) (chunkOf P S k)).data.length = min S (P.length - k * S) :=
      chunkOf_length P S k
    refine ⟨hid, htotal, rfl, fun hinner => ?_, fun hlast => ?_⟩
    · have hnext : (k + 1) * S < P.length := (lt_chunkCount_iff hS).mp (by omega)
      rw [Nat.succ_mul] at hnext
      omega
    · have hstart : k * S < P.length := (lt_chunkCount_iff hS).mp hk
      have hend : P.length ≤ (k + 1) * S := (chunkCount_le_iff hS).mp (by omega)
      rw [Nat.succ_mul] at hend
      rw [← hlast]
      omega

end Sys2Proof.Machine

/-! PROOFS. The codec commands (spec/40_codec.md R120 to R123), and what ties the messages spelled out in the statements
to the codec's functions. -/

namespace Sys2Proof.Machine

/-! ## Data fields, spelled out (spec/30_encoding.md R88) -/

theorem isSafe_iff {b : Byte} : isSafe b = true ↔ SafeByte b := by
  have hbar : b = bar ↔ b.toNat = 0x7C := BitVec.toNat_inj.symm
  simp [isSafe, hbar, and_assoc]

theorem all_isSafe_iff {d : List Byte} : d.all isSafe = true ↔ ∀ b ∈ d, SafeByte b := by
  simp only [List.all_eq_true, isSafe_iff]

theorem carried_iff {c : Coding} {d : List Byte} : Carried c d ↔ c = .hex ∨ ∀ b ∈ d, SafeByte b := by
  simp only [Carried, all_isSafe_iff]
  cases c <;> simp

theorem hexDigits_getD (n : BitVec 4) : hexDigits.getD n.toNat 0 = hexByte n := by
  revert n
  decide

theorem hexSpelling_eq_codedHex (d : List Byte) : hexSpelling d = codedHex d := by
  induction d with
  | nil => rfl
  | cons b d ih =>
    have hhigh : b.toNat / 16 = (b.extractLsb' 4 4).toNat := by
      simp only [BitVec.extractLsb'_toNat, Nat.shiftRight_eq_div_pow]
      omega
    have hlow : b.toNat % 16 = (b.extractLsb' 0 4).toNat := by simp
    rw [codedHex, ← ih, ← hexDigits_getD, ← hexDigits_getD, ← hhigh, ← hlow]
    rfl

/-- `hv` reads a digit of either case alike. -/
theorem hexValue_upperHexDigit (b : Byte) : hexValue (upperHexDigit b) = hexValue b := by
  by_cases h : 0x61 ≤ b.toNat ∧ b.toNat ≤ 0x66
  · have hupper : b.toNat - 0x20 - 0x41 = b.toNat - 0x61 := by omega
    simp only [hexValue, upperHexDigit_toNat]
    rw [if_pos h, if_neg (by omega), if_pos (by omega), if_neg (by omega), if_neg (by omega), if_pos h, hupper]
  · rw [upperHexDigit, if_neg h]

theorem uncodedHex_map_upperHexDigit (f : List Byte) : uncodedHex (f.map upperHexDigit) = uncodedHex f := by
  induction f using uncodedHex.induct with
  | case1 => rfl
  | case2 b => rfl
  | case3 hi lo t a b d ht hlo hhi ih => simp [uncodedHex, hexValue_upperHexDigit, ih]
  | case4 hi lo t hnone => simp_all [uncodedHex, hexValue_upperHexDigit]

/-- A field carries the data it spells. -/
theorem spellsData_iff {c : Coding} {d f : List Byte} : SpellsData c d f ↔ uncoded c f = some d := by
  cases c with
  | text =>
    simp only [SpellsData, uncoded, Option.ite_none_right_eq_some, Option.some.injEq, all_isSafe_iff]
    exact ⟨fun ⟨hf, hsafe⟩ => ⟨hf ▸ hsafe, hf⟩, fun ⟨hsafe, hf⟩ => ⟨hf, hf ▸ hsafe⟩⟩
  | hex =>
    simp only [SpellsData, uncoded, hexSpelling_eq_codedHex]
    refine ⟨fun h => ?_, fun h => ?_⟩
    · rw [← uncodedHex_map_upperHexDigit, h, uncodedHex_codedHex]
    · exact (codedHex_of_uncodedHex h).1.symm

theorem frameBytes_eq_frameMsg (F : Frame) (c : Coding) : frameBytes F c = frameMsg F c := by
  cases c with
  | text => rfl
  | hex => rw [frameMsg_eq_frameWith, coded, ← hexSpelling_eq_codedHex]; rfl

/-! ## What `encode` and `decode` refuse (R113, R114) -/

theorem encodeFrame_unsafe {P : Nat} {F : Frame} {c : Coding} (h : ¬ Carried c F.data) :
    encodeFrame P F c = .error .unsafeByte := by
  have hunsafe : c = .text ∧ (!F.data.all isSafe) = true := by simpa [Carried] using h
  exact if_pos hunsafe

theorem encodeFrame_tooLong {P : Nat} {F : Frame} {c : Coding} (h : Carried c F.data)
    (hlen : (frameMsg F c).length > P) : encodeFrame P F c = .error .tooLong := by
  have hsafe : ¬ (c = .text ∧ (!F.data.all isSafe) = true) := by simpa [Carried] using h
  rw [encodeFrame, if_neg hsafe, if_pos hlen]

/-- `parse_dec` reads a decimal up to its bound, and nothing else. -/
theorem isDecimal_iff {f : List Byte} {maxv : Nat} : IsDecimal f maxv ↔ ∃ n, parseDec f maxv = some n := by
  simp only [IsDecimal, parseDec_eq_some_iff, and_comm]

theorem not_isDecimal_iff {f : List Byte} {maxv : Nat} : ¬ IsDecimal f maxv ↔ parseDec f maxv = none := by
  rw [isDecimal_iff, Option.eq_none_iff_forall_ne_some, not_exists]

theorem uncoded_eq_none_iff {c : Coding} {f : List Byte} : uncoded c f = none ↔ ∀ d, ¬ SpellsData c d f := by
  simp only [spellsData_iff, Option.eq_none_iff_forall_ne_some]

/-- The first of the four fields that does not read as it should gives the detail (R114). -/
theorem decodeFields_eq_error {f1 f2 f3 f4 : List Byte} {c : Coding} {d : BitVec 8}
    (h : ¬ IsDecimal f1 65535 ∧ d = 2 ∨
      IsDecimal f1 65535 ∧ ¬ IsDecimal f2 65535 ∧ d = 3 ∨
      IsDecimal f1 65535 ∧ IsDecimal f2 65535 ∧ ¬ IsDecimal f3 255 ∧ d = 4 ∨
      IsDecimal f1 65535 ∧ IsDecimal f2 65535 ∧ IsDecimal f3 255 ∧ (∀ x, ¬ SpellsData c x f4) ∧ d = 5) :
    ∃ e : Malformed, e.code = d ∧ decodeFields f1 f2 f3 f4 c = .error e := by
  simp only [not_isDecimal_iff, ← uncoded_eq_none_iff] at h
  simp only [isDecimal_iff] at h
  rcases h with ⟨h1, rfl⟩ | ⟨⟨n1, h1⟩, h2, rfl⟩ | ⟨⟨n1, h1⟩, ⟨n2, h2⟩, h3, rfl⟩ |
    ⟨⟨n1, h1⟩, ⟨n2, h2⟩, ⟨n3, h3⟩, h4, rfl⟩
  · exact ⟨.badChunkId, rfl, by simp [decodeFields, h1]⟩
  · exact ⟨.badTotal, rfl, by simp [decodeFields, h1, h2]⟩
  · exact ⟨.badChecksum, rfl, by simp [decodeFields, h1, h2, h3]⟩
  · exact ⟨.badData, rfl, by simp [decodeFields, h1, h2, h3, h4]⟩

/-- Three delimiters between four fields leave none inside them. -/
theorem split_fourFields_of_count {f1 f2 f3 f4 : List Byte} (h : (fourFields f1 f2 f3 f4).count bar = 3) :
    split bar (fourFields f1 f2 f3 f4) = [f1, f2, f3, f4] := by
  have hcounts : f1.count bar + 1 + f2.count bar + 1 + f3.count bar + 1 + f4.count bar = 3 := by
    simp only [fourFields, List.count_append] at h
    exact h
  exact split_fourFields (List.count_eq_zero.mp (by omega)) (List.count_eq_zero.mp (by omega))
    (List.count_eq_zero.mp (by omega)) (List.count_eq_zero.mp (by omega))

theorem decodeFrame_of_failsDecode {P : Nat} {m : List Byte} {c : Coding} {d : BitVec 8} (h : FailsDecode P m c d) :
    ∃ e : Malformed, e.code = d ∧ decodeFrame P m c = .error e := by
  rcases h with ⟨hlen, rfl⟩ | ⟨hlen, hcount, rfl⟩ | ⟨hlen, hcount, f1, f2, f3, f4, rfl, hfields⟩
  · exact ⟨.tooLong, rfl, if_pos hlen⟩
  · exact ⟨.parts, rfl, (if_neg (not_lt.mpr hlen)).trans (if_pos hcount)⟩
  · rw [decodeFrame_of_split hlen (split_fourFields_of_count hcount)]
    exact decodeFields_eq_error hfields

theorem carriesFrame_iff {P : Nat} {m : List Byte} {c : Coding} {F : Frame} :
    CarriesFrame P m c F ↔ decodeFrame P m c = .ok F := by
  simp only [CarriesFrame, decodeFrame_eq_ok_iff, spellsData_iff, frameWith]

/-! ## The commands (R120 to R123) -/

/-- A write from address 0 on: the buffer holds what was written, and no other byte changed. -/
theorem State.bufferHolds_memWrite (s : State) (b : Buffer) (m : List Byte) : BufferHolds s (s.memWrite b 0 m) b m := by
  refine ⟨s.memRead_memWrite b 0 m, fun a ha => ?_, fun b' hb a => ?_⟩
  · simp [State.byteAt_memWrite, List.getElem?_eq_none ha]
  · simp [State.byteAt_memWrite, hb]

theorem endsWithMessage_of_exec {i : Instr} {s : State} {m : List Byte} (h : exec i s = .next (s.writeMsg m)) :
    EndsWithMessage i s m :=
  ⟨_, h, s.bufferHolds_memWrite .msg m, rfl⟩

theorem endsWithOpStatus_iff {i : Instr} {s : State} {c : OpCode} {d : BitVec 8} :
    EndsWithOpStatus i s c d ↔ exec i s = .next (s.setOpStatus c d) := Iff.rfl

/-- Settles O8: the length check, then the sum. -/
theorem checksumCommand : Obligations.ChecksumCommand := by
  unfold Obligations.ChecksumCommand
  intro s hidle
  have hexec : exec .opChecksum s = .next (runChecksum s) := s.whenIdle_idle hidle runChecksum
  refine ⟨fun hlen => ?_, fun hlen => ?_⟩
  · rw [endsWithOpStatus_iff, hexec, runChecksum, if_pos hlen]
  · rw [hexec, runChecksum, if_neg (not_lt.mpr hlen)]
    rfl

/-- Settles O9: the length check, then `encode` on the scratch frame. -/
theorem encodeCommand : Obligations.EncodeCommand := by
  unfold Obligations.EncodeCommand
  intro s F m hidle hF hm
  have hexec : exec .opEncode s = .next (runEncode s) := s.whenIdle_idle hidle runEncode
  obtain rfl : F = s.scratchFrame := hF
  obtain rfl : m = frameMsg s.scratchFrame s.cfg.coding := hm.trans (frameBytes_eq_frameMsg _ _)
  refine ⟨fun hlen => ?_, fun hlen htext hbytes => ?_, fun hlen hsafe => ?_⟩
  · rw [endsWithOpStatus_iff, hexec, runEncode, if_pos hlen]
  · have hunsafe : ¬ Carried s.cfg.coding s.scratchFrame.data := by
      obtain ⟨b, hb, hbad⟩ := hbytes
      rw [carried_iff, htext]
      exact not_or.mpr ⟨by decide, fun hall => hbad (hall b hb)⟩
    rw [endsWithOpStatus_iff, hexec, runEncode, if_neg (not_lt.mpr hlen), encodeFrame_unsafe hunsafe]
  · have hcarried : Carried s.cfg.coding s.scratchFrame.data := carried_iff.mpr hsafe
    refine ⟨fun hlong => ?_, fun hfits => endsWithMessage_of_exec ?_⟩
    · rw [endsWithOpStatus_iff, hexec, runEncode, if_neg (not_lt.mpr hlen), encodeFrame_tooLong hcarried hlong]
    · rw [hexec, runEncode, if_neg (not_lt.mpr hlen), encodeFrame_eq_ok_iff.mpr ⟨hcarried, hfits, rfl⟩]

/-- Settles O10: the length check, then `decode` on the scratch message. -/
theorem decodeCommand : Obligations.DecodeCommand := by
  unfold Obligations.DecodeCommand
  intro s m hidle hm
  have hexec : exec .opDecode s = .next (runDecode s) := s.whenIdle_idle hidle runDecode
  obtain rfl : m = s.scratchMsg := hm
  refine ⟨fun hlen => ?_, fun hlen => ⟨fun d hfails => ?_, fun F hcarries => ?_⟩⟩
  · rw [endsWithOpStatus_iff, hexec, runDecode, if_pos hlen]
  · obtain ⟨e, rfl, herror⟩ := decodeFrame_of_failsDecode hfails
    rw [endsWithOpStatus_iff, hexec, runDecode, if_neg (not_lt.mpr hlen), herror]
  · rw [hexec, runDecode, if_neg (not_lt.mpr hlen), carriesFrame_iff.mp hcarries]
    exact ⟨_, rfl, s.bufferHolds_memWrite .data F.data, rfl⟩

/-- Settles O11, check by check in the rule's order. -/
theorem fragmentCommand : Obligations.FragmentCommand := by
  unfold Obligations.FragmentCommand
  intro s S L k n d hidle hS hL hk hn hd
  have hexec : exec .opFragment s = .next (runFragment s) := s.whenIdle_idle hidle runFragment
  obtain rfl : n = chunkCount L S := hn
  subst hS hL hk
  obtain rfl : d = s.payloadChunk s.scratch.fChunkId.toNat := hd
  simp only [endsWithOpStatus_iff, hexec]
  rw [runFragment]
  refine ⟨fun hS => ?_, fun hS hL => ?_, fun hS hempty hlong => ?_⟩
  · rw [if_pos hS]
  · rw [if_neg hS, if_pos hL]
  · rw [if_neg hS, if_neg (not_or.mpr ⟨hempty, not_lt.mpr hlong⟩)]
    refine ⟨fun hn => ?_, fun hn hk => ?_, fun hn hk hd => ?_, fun hn hk hd => ?_⟩
    · rw [if_pos hn]
    · rw [if_neg (not_lt.mpr hn), if_pos hk]
    · rw [if_neg (not_lt.mpr hn), if_neg (not_le.mpr hk), if_pos hd]
    · rw [if_neg (not_lt.mpr hn), if_neg (not_le.mpr hk), if_neg (not_lt.mpr hd)]
      exact ⟨_, rfl, s.bufferHolds_memWrite .data _, rfl⟩

end Sys2Proof.Machine

/-! PROOFS. A transfer to a receive session whose frames arrive in order (spec/43_receiver.md R219 item 3): what storing
a frame does to the reassembly buffer, the chunks it holds after each delivery, and the payload the sentinel puts
together. -/

namespace Sys2Proof.Machine

variable {s t : State}

/-! ## Runs of events -/

theorem State.performAll_cons {e : Event} (h : perform e s = .next t) (es : List Event) :
    s.performAll (e :: es) = t.performAll es := by
  rw [State.performAll, h]

theorem State.performAll_append {es : List Event} (h : s.performAll es = some t) (es' : List Event) :
    s.performAll (es ++ es') = t.performAll es' := by
  induction es generalizing s with
  | nil =>
    cases h
    rfl
  | cons e es ih =>
    cases he : perform e s with
    | next u =>
      rw [State.performAll_cons he] at h
      rw [List.cons_append, State.performAll_cons he, ih h]
    | fault r => simp [State.performAll, he] at h
    | refused r => simp [State.performAll, he] at h

/-! ## Taking a frame (R204 to R212) -/

/-- A message that decodes is not the sentinel, which has no delimiter. -/
theorem isSentinel_of_decodeFrame {P : Nat} {m : List Byte} {c : Coding} {F : Frame} (h : decodeFrame P m c = .ok F) :
    isSentinel m = false := by
  obtain ⟨-, f1, f2, f3, f4, hsplit⟩ := split_of_decodeFrame h
  rw [isSentinel, decide_eq_false_iff_not]
  rintro rfl
  have hone : split bar sentinel = [sentinel] := split_of_not_mem (by decide)
  rw [hone] at hsplit
  cases hsplit

theorem receiverRxDeliver_of_decodeFrame {m : List Byte} {F : Frame}
    (h : decodeFrame s.params.maxMsg m s.cfg.coding = .ok F) : receiverRxDeliver .ok m s = s.takeFrame F := by
  simp [receiverRxDeliver, isSentinel_of_decodeFrame h, h]

/-- The message the encoder makes of a frame is taken as that frame. -/
theorem perform_rxDeliver_frameBytes {F : Frame} {m : List Byte} (he : s.engine = .rListen)
    (henc : encodeFrame s.params.maxMsg F s.cfg.coding = .ok m) :
    perform (.rxDeliver .ok (frameBytes F s.cfg.coding)) s = .next (s.takeFrame F) := by
  obtain ⟨-, -, rfl⟩ := encodeFrame_eq_ok_iff.mp henc
  have hdec := decodeOfEncodeIsTheFrame _ _ _ _ henc
  rw [perform_rxDeliver_rListen he, frameBytes_eq_frameMsg, receiverRxDeliver_of_decodeFrame hdec]

theorem State.acceptCheck_of_fits {F : Frame} (hrange : F.chunkId.toNat < F.totalChunks.toNat)
    (hcapacity : F.totalChunks.toNat ≤ s.params.maxChunks) (htotal : s.rx.known = true → F.totalChunks = s.rx.total)
    (hsize : F.data.length ≤ s.cfg.chunkSize.toNat) : s.acceptCheck F = none := by
  have hmismatch : ¬ (s.rx.known = true ∧ F.totalChunks ≠ s.rx.total) := fun ⟨hk, hne⟩ => hne (htotal hk)
  rw [State.acceptCheck, if_neg (not_le.mpr hrange), if_neg (not_lt.mpr hcapacity), if_neg hmismatch,
    if_neg (not_lt.mpr hsize)]

theorem State.takeFrame_eq_store {F : Frame} (hsum : checksum F.data = F.checksum) (hF : s.acceptCheck F = none) :
    s.takeFrame F = s.store F := by
  rw [State.takeFrame, if_neg (not_not.mpr hsum), hF]

@[simp] theorem State.store_engine (s : State) (F : Frame) : (s.store F).engine = .rAck := rfl

@[simp] theorem State.store_frozen (s : State) (F : Frame) : (s.store F).frozen = s.frozen := by
  simp [State.store]

@[simp] theorem State.store_slots (s : State) (F : Frame) :
    (s.store F).slots = Sparse.set F.chunkId.toNat F.data s.slots := by
  simp [State.store]

/-- What an accepted frame leaves in the receiver's registers: the total is known, and a slot that was empty counts. -/
theorem State.store_rx {F : Frame} (h : s.rx.known = true → F.totalChunks = s.rx.total) :
    (s.store F).rx.known = true ∧ (s.store F).rx.total = F.totalChunks ∧
      (s.store F).rx.count = if s.valid F.chunkId.toNat then s.rx.count else s.rx.count + 1 := by
  have hvalid : ((s.learnTotal F.totalChunks).detect F.chunkId).valid F.chunkId.toNat = s.valid F.chunkId.toNat := by
    simp [State.valid]
  have hrx : (s.store F).rx = { (((s.learnTotal F.totalChunks).detect F.chunkId).writeSlot F.chunkId F.data).rx with
      last := (s.store F).rx.last } := rfl
  rw [hrx, State.writeSlot_rx, hvalid, State.detect_rx, State.learnTotal_rx h]
  exact ⟨rfl, rfl, rfl⟩

/-! ## The receiver's part of a transfer -/

/-- A receiver with these parameters and this configuration can take the frames of `fragment(P, S)`. -/
structure Receivable (p : Params) (c : ConfigRegs) (P : List Byte) (S : Nat) : Prop where
  chunkPos : 1 ≤ S
  chunkFits : S ≤ c.chunkSize.toNat
  countFits : chunkCount P.length S ≤ p.maxChunks
  maxChunks : p.maxChunks ≤ 65535
  encodes : ∀ F ∈ fragment P S, ∃ m, encodeFrame p.maxMsg F c.coding = .ok m

/-- The reassembly buffer holds the first `k` chunks of `P` and no other, and the receiver's registers say so. -/
structure HoldsChunks (p : Params) (c : ConfigRegs) (P : List Byte) (S k : Nat) (s : State) : Prop where
  params : s.params = p
  cfg : s.cfg = c
  slots : ∀ i, Sparse.get? i s.slots = if i < k then some (chunkOf P S i) else none
  count : s.rx.count.toNat = k
  total : s.rx.known = true → s.rx.total.toNat = chunkCount P.length S
  known : 0 < k → s.rx.known = true

section Delivery
variable {p : Params} {c : ConfigRegs} {P : List Byte} {S i j k : Nat}

theorem HoldsChunks.valid (h : HoldsChunks p c P S k s) (i : Nat) : s.valid i = decide (i < k) := by
  rw [State.valid, h.slots]
  split <;> simp_all

theorem HoldsChunks.slotData (h : HoldsChunks p c P S k s) (hi : i < k) : s.slotData i = chunkOf P S i := by
  rw [State.slotData, h.slots, if_pos hi, Option.getD_some]

/-- Frame `i` of a receivable transfer. -/
abbrev frameOf (P : List Byte) (S i : Nat) : Frame := makeFrame i (chunkCount P.length S) (chunkOf P S i)

theorem Receivable.encodes_frameOf (hP : Receivable p c P S) (hi : i < chunkCount P.length S) :
    ∃ m, encodeFrame p.maxMsg (frameOf P S i) c.coding = .ok m :=
  hP.encodes _ (List.mem_of_getElem? (fragment_getElem? hi))

theorem Receivable.frameOf_toNat (hP : Receivable p c P S) (hi : i < chunkCount P.length S) :
    (frameOf P S i).chunkId.toNat = i ∧ (frameOf P S i).totalChunks.toNat = chunkCount P.length S :=
  makeFrame_toNat hi (hP.countFits.trans hP.maxChunks) _

theorem HoldsChunks.frameOf_total (h : HoldsChunks p c P S k s) (hP : Receivable p c P S)
    (hi : i < chunkCount P.length S) (hknown : s.rx.known = true) : (frameOf P S i).totalChunks = s.rx.total := by
  obtain ⟨-, htotal⟩ := hP.frameOf_toNat hi
  exact BitVec.eq_of_toNat_eq (htotal.trans (h.total hknown).symm)

/-- R209: every frame of a receivable transfer passes the acceptance check. -/
theorem HoldsChunks.acceptCheck_frameOf (h : HoldsChunks p c P S k s) (hP : Receivable p c P S)
    (hi : i < chunkCount P.length S) : s.acceptCheck (frameOf P S i) = none := by
  obtain ⟨hid, htotal⟩ := hP.frameOf_toNat hi
  refine State.acceptCheck_of_fits (by omega) ?_ (h.frameOf_total hP hi) ?_
  · rw [htotal, h.params]
    exact hP.countFits
  · have hlength : (frameOf P S i).data.length = min S (P.length - i * S) := chunkOf_length P S i
    rw [hlength, h.cfg]
    exact (min_le_left _ _).trans hP.chunkFits

/-- R212: the next frame adds its chunk; the frame last stored adds nothing. -/
theorem HoldsChunks.store (h : HoldsChunks p c P S j s) (hP : Receivable p c P S) (hi : i < chunkCount P.length S)
    (hj : j = i ∨ j = i + 1) : HoldsChunks p c P S (i + 1) (s.store (frameOf P S i)) := by
  obtain ⟨hid, htotal⟩ := hP.frameOf_toNat hi
  obtain ⟨hknown, hsame, hcount⟩ := State.store_rx (h.frameOf_total hP hi)
  obtain ⟨hcfg, hparams, -, -⟩ := State.frozen_eq_iff.mp (s.store_frozen (frameOf P S i))
  exact
    { params := hparams.trans h.params
      cfg := hcfg.trans h.cfg
      slots := fun a => by
        rw [State.store_slots, Sparse.get?_set, hid, h.slots]
        rcases lt_trichotomy a i with ha | rfl | ha
        · rw [if_neg (by omega), if_pos (by omega), if_pos (by omega)]
        · rw [if_pos rfl, if_pos (by omega)]
          rfl
        · rw [if_neg (by omega), if_neg (by omega), if_neg (by omega)]
      count := by
        have hbefore := h.count
        have hsmall := hP.countFits.trans hP.maxChunks
        rw [hcount, hid, h.valid]
        rcases hj with rfl | rfl
        · simp only [lt_self_iff_false, decide_false, Bool.false_eq_true, if_false]
          bv_omega
        · simpa using hbefore
      total := fun _ => by rw [hsame, htotal]
      known := fun _ => hknown }

/-- R217: the acknowledgement's `TxDone` leaves what the receiver holds. -/
theorem HoldsChunks.receiverTxDone (h : HoldsChunks p c P S k s) (st : Status) :
    HoldsChunks p c P S k (receiverTxDone st s) := by
  cases st <;> exact { h with }

theorem receiverTxDone_engine (s : State) (st : Status) : (receiverTxDone st s).engine = .rListen := by
  cases st <;> rfl

/-- One delivery of frame `i` and its answer. -/
theorem HoldsChunks.deliverOnce (h : HoldsChunks p c P S j s) (he : s.engine = .rListen) (hP : Receivable p c P S)
    (hi : i < chunkCount P.length S) (hj : j = i ∨ j = i + 1) (st : Status) :
    ∃ t, s.performAll [.rxDeliver .ok (frameBytes (frameOf P S i) c.coding), .txDone st] = some t ∧
      t.engine = .rListen ∧ HoldsChunks p c P S (i + 1) t := by
  obtain ⟨m, henc⟩ := hP.encodes_frameOf hi
  rw [← h.params, ← h.cfg] at henc
  have htaken := perform_rxDeliver_frameBytes he henc
  rw [State.takeFrame_eq_store rfl (h.acceptCheck_frameOf hP hi), h.cfg] at htaken
  refine ⟨Machine.receiverTxDone st (s.store (frameOf P S i)), ?_, receiverTxDone_engine _ st,
    (h.store hP hi hj).receiverTxDone st⟩
  rw [State.performAll_cons htaken, State.performAll_cons (perform_txDone_rAck (s.store_engine _) st)]
  rfl

/-- Frame `i`, delivered once or more. -/
theorem HoldsChunks.deliverFrame {sts : List Status} (hsts : sts ≠ []) (h : HoldsChunks p c P S j s)
    (he : s.engine = .rListen) (hP : Receivable p c P S) (hi : i < chunkCount P.length S) (hj : j = i ∨ j = i + 1) :
    ∃ t, s.performAll (deliverFrame c.coding (frameOf P S i) sts) = some t ∧ t.engine = .rListen ∧
      HoldsChunks p c P S (i + 1) t := by
  induction sts generalizing s j with
  | nil => contradiction
  | cons st sts ih =>
    obtain ⟨t, hrun, ht, hholds⟩ := h.deliverOnce he hP hi hj st
    have hall : s.performAll (Machine.deliverFrame c.coding (frameOf P S i) (st :: sts)) =
        t.performAll (Machine.deliverFrame c.coding (frameOf P S i) sts) := State.performAll_append hrun _
    rw [hall]
    cases sts with
    | nil => exact ⟨t, rfl, ht, hholds⟩
    | cons st' sts => exact ih (by simp) hholds ht (.inr rfl)

/-- The frames from `k` on, each delivered once or more. -/
theorem HoldsChunks.deliverFrames {plan : List (List Status)} (hplan : ∀ sts ∈ plan, sts ≠ [])
    (hlength : k + plan.length = chunkCount P.length S) (h : HoldsChunks p c P S k s) (he : s.engine = .rListen)
    (hP : Receivable p c P S) :
    ∃ t, s.performAll ((((fragment P S).drop k).zip plan).flatMap fun q => Machine.deliverFrame c.coding q.1 q.2) =
        some t ∧ t.engine = .rListen ∧ HoldsChunks p c P S (chunkCount P.length S) t := by
  induction plan generalizing s k with
  | nil =>
    obtain rfl : k = chunkCount P.length S := hlength
    exact ⟨s, by simp [State.performAll], he, h⟩
  | cons sts plan ih =>
    rw [List.length_cons] at hlength
    have hk : k < chunkCount P.length S := by omega
    have hdrop : (fragment P S).drop k = frameOf P S k :: (fragment P S).drop (k + 1) := by
      obtain ⟨hlt, hframe⟩ := List.getElem?_eq_some_iff.mp (fragment_getElem? hk)
      rw [List.drop_eq_getElem_cons hlt, hframe]
    obtain ⟨t, hrun, ht, hholds⟩ := h.deliverFrame (hplan sts (by simp)) he hP hk (.inl rfl)
    rw [hdrop, List.zip_cons_cons, List.flatMap_cons, State.performAll_append hrun]
    exact ih (fun sts' hmem => hplan sts' (by simp [hmem])) (by omega) hholds ht

/-! ## The sentinel (R215) -/

/-- A complete reassembly buffer is put together in `OUT`. -/
theorem State.complete_assembled (hknown : s.rx.known = true) (hcount : s.rx.count = s.rx.total) :
    s.complete.engine = .idle ∧ s.complete.result = { code := .recvAssembled, detail := 0 } ∧
      s.complete.rx.outLen = BitVec.ofNat 24 (s.assemble s.rx.total.toNat).length ∧
      s.complete.memRead .out 0 (s.assemble s.rx.total.toNat).length = s.assemble s.rx.total.toNat := by
  have hdone : (s.setRxLast .sentinel 0 0).rx.known = true ∧
      (s.setRxLast .sentinel 0 0).rx.count = (s.setRxLast .sentinel 0 0).rx.total := ⟨hknown, hcount⟩
  rw [State.complete, if_pos hdone]
  exact ⟨rfl, rfl, rfl, (s.setRxLast .sentinel 0 0).memRead_memWrite .out 0 (s.assemble s.rx.total.toNat)⟩

/-- All chunks together are the payload. -/
theorem HoldsChunks.assemble (h : HoldsChunks p c P S (chunkCount P.length S) s) (hS : 1 ≤ S) :
    s.assemble (chunkCount P.length S) = P := by
  calc s.assemble (chunkCount P.length S)
      = (List.range (chunkCount P.length S)).flatMap (chunkOf P S) :=
        List.flatMap_congr fun i hi => h.slotData (List.mem_range.mp hi)
    _ = P := flatMap_chunkOf_range_chunkCount P hS

theorem perform_rxDeliver_sentinel (he : s.engine = .rListen) :
    perform (.rxDeliver .ok sentinel) s = .next s.complete := by
  rw [perform_rxDeliver_rListen he]
  rfl

end Delivery

/-- Settles O59: frame after frame the reassembly buffer holds one chunk more, and the sentinel finds it complete. -/
theorem inOrderTransferReassembles : Obligations.InOrderTransferReassembles := by
  unfold Obligations.InOrderTransferReassembles
  intro s P S plan hwf he hslots hunknown hcount hpos hlen hS hfits hchunks hencodes hplan hsts
  have hP : Receivable s.params s.cfg P S :=
    { chunkPos := hS
      chunkFits := hfits
      countFits := hchunks
      maxChunks := by
        simp only [Params.wf, Bool.and_eq_true, decide_eq_true_eq] at hwf
        omega
      encodes := hencodes }
  have hempty : HoldsChunks s.params s.cfg P S 0 s :=
    { params := rfl
      cfg := rfl
      slots := fun i => by simp [hslots]
      count := by simp [hcount]
      total := by simp [hunknown]
      known := by simp }
  obtain ⟨t, hrun, ht, hholds⟩ := hempty.deliverFrames hsts (by simpa using hplan) he hP
  rw [List.drop_zero] at hrun
  have hknown := hholds.known (chunkCount_pos (by omega) (by omega))
  have htotal := hholds.total hknown
  obtain ⟨hidle, hresult, hout, hread⟩ :=
    State.complete_assembled hknown (BitVec.eq_of_toNat_eq (hholds.count.trans htotal.symm))
  rw [htotal, hholds.assemble hS] at hout hread
  refine ⟨t.complete, ?_, hidle, hresult, ?_, hread⟩
  · rw [deliverTransfer, State.performAll_append hrun]
    exact State.performAll_cons (perform_rxDeliver_sentinel ht) []
  · rw [hout, BitVec.toNat_ofNat, Nat.mod_eq_of_lt hlen]

end Sys2Proof.Machine

/-! PROOFS. The acknowledgement and sentinel commands (spec/41_ack.md R146 to R149), and the sender's use of the matcher:
TX_CHUNK goes up on the awaited acknowledgement and on nothing else (spec/42_sender.md R173, R175, R179). -/

namespace Sys2Proof.Machine

variable {s t : State}

/-! ## What the sender's operations do to TX_CHUNK -/

@[simp] theorem State.failAttempt_chunk (s : State) (r : TxLast) : (s.failAttempt r).tx.chunk = s.tx.chunk := by
  simp only [State.failAttempt]
  split <;> rfl

@[simp] theorem State.stray_chunk (s : State) (r : TxLast) : (s.stray r).tx.chunk = s.tx.chunk := by
  simp only [State.stray]
  split
  · exact State.failAttempt_chunk _ r
  · rfl

/-- R175: the sentinel and the next frame alike are offered with TX_CHUNK one up. -/
@[simp] theorem State.advance_chunk (s : State) : s.advance.tx.chunk = s.tx.chunk + 1 := by
  simp only [State.advance]
  split <;> rfl

@[simp] theorem senderTick_chunk (s : State) : (senderTick s).tx.chunk = s.tx.chunk := by
  simp only [senderTick]
  split
  · exact State.failAttempt_chunk _ .timeout
  · rfl

@[simp] theorem senderTxDoneFail_chunk (s : State) : (senderTxDoneFail s).tx.chunk = s.tx.chunk :=
  State.failAttempt_chunk _ .txFail

@[simp] theorem sentinelTxDone_chunk (s : State) (st : Status) : (sentinelTxDone st s).tx.chunk = s.tx.chunk := by
  cases st <;> rfl

@[simp] theorem runAbort_chunk (s : State) : (runAbort s).tx.chunk = s.tx.chunk := by
  unfold runAbort
  split <;> rfl

/-! ## The acknowledgement awaited (R142, R143) -/

/-- A block with a longer transport takes every acknowledgement that one with a shorter transport takes. -/
theorem parseAck_mono {P Q : Nat} (hPQ : P ≤ Q) {m : List Byte} {a : Bool × BitVec 16} (h : parseAck P m = some a) :
    parseAck Q m = some a := by
  unfold parseAck at h ⊢
  by_cases hlen : m.length > P
  · rw [if_pos hlen] at h
    cases h
  · rw [if_neg hlen] at h
    rwa [if_neg (by omega)]

/-- What the matcher matches is the acknowledgement of the awaited id, whatever the transport's size. -/
theorem eq_ackMsg_of_decodeAck {P : Nat} {m : List Byte} {e : BitVec 16} {ok : Bool}
    (h : decodeAck P m e = .matched ok) : m = ackMsg e ok := by
  unfold decodeAck at h
  split at h
  · cases h
  · rename_i k id hparse
    split_ifs at h with hid
    cases h
    subst hid
    exact (parseAck_eq_some_iff (le_max_right P 16)).mp (parseAck_mono (le_max_left P 16) hparse)

/-! ## Where TX_CHUNK changes (R179) -/

/-- R173: a message taken in S_WAIT moves TX_CHUNK only where the matcher answers a positive match. -/
theorem senderRxDeliver_chunk (s : State) (st : Status) (m : List Byte) :
    (senderRxDeliver st m s).tx.chunk = s.tx.chunk ∨
      (st = .ok ∧ m = ackMsg s.tx.chunk true ∧ (senderRxDeliver st m s).tx.chunk = s.tx.chunk + 1) := by
  unfold senderRxDeliver
  split
  · exact .inl rfl
  · split
    · rename_i hmatched
      exact .inr ⟨rfl, eq_ackMsg_of_decodeAck hmatched, State.advance_chunk _⟩
    · exact .inl (State.failAttempt_chunk _ .nak)
    · exact .inl (s.stray_chunk .unmatched)
    · exact .inl (s.stray_chunk .notAnAck)

/-- No host access moves TX_CHUNK while a session runs. -/
theorem HostEffect.chunk (h : HostEffect s t) (hbusy : s.engine ≠ .idle) : t.tx.chunk = s.tx.chunk := by
  cases h with
  | undisturbed h => rw [h.tx]
  | beginSend hidle => exact absurd hidle hbusy
  | beginRecv hidle => exact absurd hidle hbusy
  | abort => exact runAbort_chunk s

theorem tick_chunk (s : State) : (tick s).tx.chunk = s.tx.chunk := by
  unfold tick
  split
  · exact senderTick_chunk s
  all_goals rfl

theorem txDone_chunk {st : Status} (ht : txDone st s = .next t) : t.tx.chunk = s.tx.chunk := by
  rcases txDone_cases ht with ⟨-, ⟨-, rfl⟩ | ⟨-, rfl⟩⟩ | ⟨-, rfl⟩ | ⟨-, rfl⟩
  · rfl
  · exact senderTxDoneFail_chunk s
  · exact sentinelTxDone_chunk s st
  · cases st <;> rfl

theorem State.inSenderSession.ne_idle (h : s.inSenderSession) : s.engine ≠ .idle := by
  rcases h with h | h | h <;> simp [h]

/-- All an event of a sender session but `Reset` can do to TX_CHUNK. -/
theorem perform_chunk {e : Event} (hs : s.inSenderSession) (hreset : e ≠ .reset) (ht : perform e s = .next t) :
    t.tx.chunk = s.tx.chunk ∨
      (s.engine = .sWait ∧ t.tx.chunk = s.tx.chunk + 1 ∧ e = .rxDeliver .ok (ackMsg s.tx.chunk true)) := by
  cases e with
  | reset => exact absurd rfl hreset
  | hostWrite off v => exact .inl ((HostEffect.hostWrite ht).chunk hs.ne_idle)
  | hostRead off => cases ht; exact .inl (by rw [(Undisturbed.hostRead s off).tx])
  | tick => cases ht; exact .inl (tick_chunk s)
  | txDone st => exact .inl (txDone_chunk ht)
  | rxDeliver st m =>
    rcases rxDeliver_cases ht with ⟨hwait, rfl⟩ | ⟨hlisten, -⟩
    · rcases senderRxDeliver_chunk s st m with hsame | ⟨rfl, rfl, hnext⟩
      · exact .inl hsame
      · exact .inr ⟨hwait, hnext, rfl⟩
    · rcases hs with h | h | h <;> cases h.symm.trans hlisten

/-- Settles O45: of all events only the delivery of the awaited acknowledgement moves TX_CHUNK. -/
theorem senderAdvancesOnlyOnAwaitedAck : Obligations.SenderAdvancesOnlyOnAwaitedAck := by
  unfold Obligations.SenderAdvancesOnlyOnAwaitedAck
  intro s t hs hreset ht hchunk
  rcases step_cases ht with ⟨-, rfl⟩ | ⟨e, rest, hinputs, hperform⟩
  · exact absurd rfl hchunk
  · have hne : e ≠ .reset := by simpa [hinputs] using hreset
    obtain hsame | ⟨hwait, hnext, rfl⟩ :=
      perform_chunk (s := { s with inputs := rest, reply := none }) hs hne hperform
    · exact absurd hsame hchunk
    · exact ⟨hwait, hnext, by rw [hinputs]; rfl⟩

/-! ## The commands (R146 to R149) -/

/-- Settles O12: the message written is `ack_msg` of ACK_CTRL, whose token ACK_OK chooses. -/
theorem encAckCommand : Obligations.EncAckCommand := by
  unfold Obligations.EncAckCommand
  intro s hidle
  have hends : EndsWithMessage .opEncAck s (ackMsg s.scratch.ackId s.scratch.ackOk) :=
    endsWithMessage_of_exec (s.whenIdle_idle hidle runEncAck)
  exact ⟨fun hok => by rwa [hok] at hends, fun herr => by rwa [herr] at hends⟩

/-- What `OP_DEC_ACK` writes for a well-formed acknowledgement: ACK_CTRL, and how it compares with ACK_EXPECT (R147). -/
theorem runDecAck_of_parseAck {ok : Bool} {id : BitVec 16} (hlen : s.scratch.msgLen.toNat ≤ s.params.maxMsg)
    (hparse : parseAck s.params.maxMsg s.scratchMsg = some (ok, id)) :
    runDecAck s = (s.writeAckCtrl ok id).setOpStatus
      (if id ≠ s.scratch.ackExpect then .ackUnmatched else if ok then .ackMatchedOk else .ackMatchedErr) 0 := by
  rw [runDecAck, if_neg (not_lt.mpr hlen), hparse]
  by_cases hid : id = s.scratch.ackExpect
  · cases ok <;> simp [hid]
  · simp [hid]

/-- Settles O13: the length check, then `parse_ack` on the scratch message, then the comparison with ACK_EXPECT. -/
theorem decAckCommand : Obligations.DecAckCommand := by
  unfold Obligations.DecAckCommand
  intro s m hidle hm
  have hexec : exec .opDecAck s = .next (runDecAck s) := s.whenIdle_idle hidle runDecAck
  obtain rfl : m = s.scratchMsg := hm
  refine ⟨fun hlen => ?_, fun hlen => ⟨fun hnone => ?_, fun ok id hparse => ?_⟩⟩
  · rw [endsWithOpStatus_iff, hexec, runDecAck, if_pos hlen]
  · rw [endsWithOpStatus_iff, hexec, runDecAck, if_neg (not_lt.mpr hlen), hnone]
  · rw [hexec, runDecAck_of_parseAck hlen hparse]
    rfl

/-- Settles O14: the message written is the sentinel. -/
theorem encSentinelCommand : Obligations.EncSentinelCommand := by
  unfold Obligations.EncSentinelCommand
  intro s hidle
  exact endsWithMessage_of_exec (m := sentinel) (s.whenIdle_idle hidle runEncSentinel)

theorem isSentinel_iff {m : List Byte} : isSentinel m = true ↔ m = [0x45, 0x4E, 0x44] := decide_eq_true_iff

/-- Settles O15: the length check, then the comparison of the scratch message with the sentinel. -/
theorem isSentinelCommand : Obligations.IsSentinelCommand := by
  unfold Obligations.IsSentinelCommand
  intro s m hidle hm
  have hexec : exec .opIsSentinel s = .next (runIsSentinel s) := s.whenIdle_idle hidle runIsSentinel
  obtain rfl : m = s.scratchMsg := hm
  simp only [endsWithOpStatus_iff, hexec, runIsSentinel]
  refine ⟨fun hlen => ?_, fun hlen hend => ?_, fun hlen hother => ?_⟩
  · rw [if_pos hlen]
  · rw [if_neg (not_lt.mpr hlen), if_pos (isSentinel_iff.mpr hend)]
  · rw [if_neg (not_lt.mpr hlen), if_neg (mt isSentinel_iff.mp hother)]

end Sys2Proof.Machine

/-! PROOFS. The sender (spec/42_sender.md R160 to R178): the checks of PREPARE and the first offer, the retry counter,
and the events of a send session. -/

namespace Sys2Proof.Machine

variable {s t : State}

/-! ## Offering a message (R17) -/

/-- The offer of a message that TX_LEN can count, in a state with the buffers of `s`. -/
theorem offers_of_offer {m : List Byte} {e : EngineState} (he : e.offering = true) (hm : m.length ≤ 65535)
    (hbufs : t.bufs = s.bufs) (hresets : t.resets = s.resets) : Offers s ((t.offer m).goto e) m := by
  have hbyte : ∀ b a, t.byteAt b a = s.byteAt b a := fun b a => State.byteAt_congr (by rw [hbufs]) hresets a
  refine ⟨?_, fun a ha => ?_, fun b hb a => ?_⟩
  · have hread : ((t.offer m).goto e).memRead .txmsg 0 ((t.offer m).goto e).txLen.toNat = m := t.memRead_offer hm
    rw [State.txPort, State.goto_engine, if_pos he, hread]
  · change (t.offer m).byteAt .txmsg a = _
    rw [State.byteAt_offer, if_pos rfl, List.getElem?_eq_none ha, Option.getD_none, hbyte]
  · change (t.offer m).byteAt b a = _
    rw [State.byteAt_offer, if_neg hb, hbyte]

/-- A chunk is no longer than CHUNK_SIZE, which has eight bits. -/
theorem State.payloadChunk_length_le (s : State) (k : Nat) : (s.payloadChunk k).length ≤ 255 := by
  have hS := s.cfg.chunkSize.isLt
  rw [State.payloadChunk_eq_chunkOf, chunkOf_length]
  omega

/-- R163: in every state the frame that would be offered is short enough for TX_LEN. -/
theorem State.frameMsg_sendFrame_length_le (s : State) (k : BitVec 16) :
    (frameMsg (s.sendFrame k) s.cfg.coding).length ≤ 65535 := by
  have hdata : (s.sendFrame k).data.length ≤ 255 := s.payloadChunk_length_le k.toNat
  have hcoded : (coded s.cfg.coding (s.sendFrame k).data).length ≤ 510 := by
    rw [coded_length]
    split <;> omega
  have hid := dec_length_le (n := (s.sendFrame k).chunkId.toNat) (k := 5) (by decide) (by omega)
  have htotal := dec_length_le (n := (s.sendFrame k).totalChunks.toNat) (k := 5) (by decide) (by omega)
  have hsum := dec_length_le (n := (s.sendFrame k).checksum.toNat) (k := 3) (by decide) (by omega)
  simp only [frameMsg, List.length_append, List.length_singleton]
  omega

/-- R163: `offer_frame(k)` presents the frame `k` of the state it is done in. -/
theorem offers_of_offerFrame (k : BitVec 16) (hbufs : t.bufs = s.bufs) (hresets : t.resets = s.resets) :
    Offers s ((t.offerFrame k).goto .sSend) (frameBytes (t.sendFrame k) t.cfg.coding) := by
  rw [frameBytes_eq_frameMsg]
  exact offers_of_offer rfl (t.frameMsg_sendFrame_length_le k) hbufs hresets

/-! ## PREPARE (R160, R161) -/

theorem not_carried_iff {c : Coding} {d : List Byte} : ¬ Carried c d ↔ c = .text ∧ (!d.all isSafe) = true := by
  simp [Carried]

/-- R160: the detail PREPARE finds is what a refused `START_SEND` reports. -/
theorem endsWithCfgError_of_validateSend {d : BitVec 8} (hidle : s.engine = .idle) (hd : d ≠ 0)
    (hv : s.validateSend = d) : EndsWithCfgError .startSend s d := by
  have hexec : exec .startSend s = .next (runStartSend s) := s.whenIdle_idle hidle runStartSend
  rw [EndsWithCfgError, hexec, runStartSend, if_pos (by rwa [hv]), hv]
  rfl

/-- Settles O16: each detail is the first failing check of `validate_send`. -/
theorem startSendReportsFirstFailingCheck : Obligations.StartSendReportsFirstFailingCheck := by
  unfold Obligations.StartSendReportsFirstFailingCheck
  intro s S L n P hidle hSdef hLdef hndef hPdef
  have reports {d : BitVec 8} := endsWithCfgError_of_validateSend (d := d) hidle
  have hcount : n = chunkCount L S := hndef
  subst hSdef hLdef hcount hPdef
  refine ⟨fun hS => ?_, fun hS hretries => ?_, fun hS hretries htimeout => ?_, fun hS hretries htimeout =>
    ⟨fun hL => ?_, fun hfit hL => ?_, fun hL hfit hn => ?_, fun hL hfit hn htext hunsafe => ?_,
      fun hL hfit hn hsafe hlong => ?_⟩⟩
  · exact reports (by decide) (by rw [State.validateSend, if_pos hS])
  · exact reports (by decide) (by rw [State.validateSend, if_neg hS, if_pos hretries])
  · exact reports (by decide) (by rw [State.validateSend, if_neg hS, if_neg hretries, if_pos htimeout])
  · refine reports (by decide) ?_
    rw [State.validateSend, if_neg hS, if_neg hretries, if_neg htimeout, if_pos hL]
  · refine reports (by decide) ?_
    rw [State.validateSend, if_neg hS, if_neg hretries, if_neg htimeout, if_neg hL, if_pos hfit]
  · refine reports (by decide) ?_
    rw [State.validateSend, if_neg hS, if_neg hretries, if_neg htimeout, if_neg hL, if_neg (not_lt.mpr hfit), if_pos hn]
  · have hcarried : ¬ Carried s.cfg.coding (s.memRead .payload 0 s.cfg.payloadLen.toNat) := by
      simpa [carried_iff, htext] using hunsafe
    refine reports (by decide) ?_
    rw [State.validateSend, if_neg hS, if_neg hretries, if_neg htimeout, if_neg hL, if_neg (not_lt.mpr hfit),
      if_neg (not_lt.mpr hn), if_pos (not_carried_iff.mp hcarried)]
  · have hcarried := carried_iff.mpr hsafe
    have hany : ((fragment (s.memRead .payload 0 s.cfg.payloadLen.toNat) s.cfg.chunkSize.toNat).any
        fun F => decide ((frameMsg F s.cfg.coding).length > s.params.maxMsg)) = true := by
      simpa [frameBytes_eq_frameMsg] using hlong
    refine reports (by decide) ?_
    rw [State.validateSend, if_neg hS, if_neg hretries, if_neg htimeout, if_neg hL, if_neg (not_lt.mpr hfit),
      if_neg (not_lt.mpr hn), if_neg (mt not_carried_iff.mpr (not_not.mpr hcarried)), if_pos hany]

/-- The registers that `begin_send()` writes (R162). -/
def State.sendStarted (s : State) : State :=
  { s with
    result := { code := .none, detail := 0 }
    flags := s.flags &&& 0b0000000110#10
    cnt := Counters.zero
    tx :=
      { chunk := 0, total := BitVec.ofNat 16 (chunkCount s.cfg.payloadLen.toNat s.cfg.chunkSize.toNat), attempt := 1,
        last := .none, timer := 0, failId := 0xFFFF } }

/-- R162: `begin_send()` writes the session's registers and offers frame 0. -/
theorem State.beginSend_eq (s : State) : s.beginSend = (s.sendStarted.offerFrame 0).goto .sSend := rfl

/-- R162, R163: where PREPARE passes, the frame offered first is frame 0 of the payload's fragments. -/
theorem State.fragment_zero_sendStarted (hv : s.validateSend = 0) :
    (fragment (s.memRead .payload 0 s.cfg.payloadLen.toNat) s.cfg.chunkSize.toNat)[0]? =
      some (s.sendStarted.sendFrame 0) := by
  obtain ⟨hS, -, -, hL, -, hn, -, -⟩ := s.validateSend_eq_zero.mp hv
  have htotal : s.sendStarted.tx.total.toNat = chunkCount s.cfg.payloadLen.toNat s.cfg.chunkSize.toNat := by
    rw [State.sendStarted, BitVec.toNat_ofNat, Nat.mod_eq_of_lt (by omega)]
  have hpos : (0#16).toNat < s.sendStarted.tx.total.toNat := by
    rw [htotal]
    exact chunkCount_pos hS hL
  exact State.fragment_getElem?_sendFrame (s := s.sendStarted) htotal hpos

/-- Settles O17: PREPARE finds nothing, so `begin_send()` runs. -/
theorem startSendOffersFrameZero : Obligations.StartSendOffersFrameZero := by
  unfold Obligations.StartSendOffersFrameZero
  intro s S L n P hidle hSdef hLdef hndef hPdef hS hretries htimeout hL hfit hn hsafe hlengths
  have hcount : n = chunkCount L S := hndef
  subst hSdef hLdef hcount hPdef
  have hv : s.validateSend = 0 := s.validateSend_eq_zero.mpr
    ⟨hS, hretries, htimeout, hL, hfit, hn, carried_iff.mpr hsafe,
      by simpa only [frameBytes_eq_frameMsg] using hlengths⟩
  have hexec : exec .startSend s = .next (runStartSend s) := s.whenIdle_idle hidle runStartSend
  rw [runStartSend, if_neg (not_not.mpr hv), State.beginSend_eq] at hexec
  exact ⟨_, _, hexec, State.fragment_zero_sendStarted hv, offers_of_offerFrame 0 rfl rfl, rfl⟩

/-- Settles O54: every chunk's bytes are the payload's, and every frame of the payload fits. -/
theorem validatedTransferAlwaysEncodes : Obligations.ValidatedTransferAlwaysEncodes := by
  unfold Obligations.ValidatedTransferAlwaysEncodes
  intro s k hv htotal hk
  obtain ⟨-, -, -, -, -, -, hsafe, -⟩ := s.validateSend_eq_zero.mp hv
  have hcarried : Carried s.cfg.coding (s.sendFrame k).data := by
    intro htext
    rw [State.sendFrame, State.payloadChunk_eq_chunkOf]
    have hall := List.all_eq_true.mp (hsafe htext)
    exact List.all_eq_true.mpr fun b hb => hall b (List.mem_of_mem_drop (List.mem_of_mem_take hb))
  refine ⟨encodeFrame_eq_ok_iff.mpr ⟨hcarried, ?_, frameBytes_eq_frameMsg _ _⟩,
    State.fragment_getElem?_sendFrame htotal hk⟩
  rw [frameBytes_eq_frameMsg]
  exact State.frameFits_of_validated hv htotal hk

/-! ## The retry counter (R164) -/

/-- What a failed attempt's cause records before `fail_attempt`: its counter, its flags, TX_LAST, and TX_TIMER as the
cause left it. -/
def State.recordCause (c : Counter) (fl : BitVec 10) (r : TxLast) (v : BitVec 16) (s : State) : State :=
  { s with cnt := s.cnt.inc c, flags := s.flags ||| fl, tx := { s.tx with last := r, timer := v } }

/-- A cause without a flag of its own. -/
theorem State.recordCause_no_flag (c : Counter) (r : TxLast) (s : State) :
    s.recordCause c 0 r s.tx.timer = (s.cntInc c).setTxLast r := by
  rw [State.recordCause, show s.flags ||| 0 = s.flags from BitVec.or_zero]
  rfl

/-- R164: another attempt offers the same frame again; after the last one the session ends. -/
theorem failedAttempt_recordCause (c : Counter) (fl : BitVec 10) (r : TxLast) (v : BitVec 16) (s : State) :
    FailedAttempt s ((s.recordCause c fl r v).failAttempt r) c fl r := by
  simp only [FailedAttempt, State.failAttempt]
  by_cases hagain : s.tx.attempt < s.cfg.maxRetries
  · rw [if_pos hagain, if_pos (by exact hagain)]
    exact ⟨offers_of_offerFrame s.tx.chunk rfl rfl, rfl⟩
  · rw [if_neg hagain, if_neg (by exact hagain)]
    rfl

/-- A cause that has no flag of its own and leaves the timer to `fail_attempt`. -/
theorem failedAttempt_cntInc (c : Counter) (r : TxLast) (s : State) :
    FailedAttempt s (((s.cntInc c).setTxLast r).failAttempt r) c 0 r :=
  s.recordCause_no_flag c r ▸ failedAttempt_recordCause c 0 r s.tx.timer s

/-! ## Waiting for an acknowledgement (R170 to R172) -/

/-- R172: a `Tick` counts only in S_WAIT. -/
theorem tick_of_ne_sWait (h : s.engine ≠ .sWait) : tick s = s := by
  cases he : s.engine <;> simp_all [tick]

theorem tick_sWait (h : s.engine = .sWait) : tick s = senderTick s := by
  rw [tick, h]

theorem senderTick_running (h : s.tx.timer - 1 ≠ 0) : senderTick s = s.setTxTimer (s.tx.timer - 1) := if_neg h

theorem senderTick_expired (h : s.tx.timer - 1 = 0) :
    senderTick s = (((s.setTxTimer (s.tx.timer - 1)).cntInc .timeout).setTxLast .timeout).failAttempt .timeout :=
  if_pos h

/-- Settles O18: the last Tick of the wait is a failed attempt, any other is counted. -/
theorem tickCountsTheAckWait : Obligations.TickCountsTheAckWait := by
  unfold Obligations.TickCountsTheAckWait
  refine fun s => ⟨fun hother => ?_, fun hwait hmore => ?_, fun hwait hone => ?_⟩
  · rw [perform, tick_of_ne_sWait hother]
  · have hrunning : s.tx.timer - 1 ≠ 0 := by bv_omega
    rw [perform, tick_sWait hwait, senderTick_running hrunning]
    rfl
  · have hexpired : s.tx.timer - 1 = 0 := by rw [hone]; rfl
    refine ⟨senderTick s, by rw [perform, tick_sWait hwait], ?_⟩
    rw [senderTick_expired hexpired, ← State.recordCause_no_flag]
    exact failedAttempt_recordCause .timeout 0 .timeout (s.tx.timer - 1) s

/-- Settles O19: OK starts the wait, FAIL is a failed attempt with a flag of its own. -/
theorem frameTxDone : Obligations.FrameTxDone := by
  unfold Obligations.FrameTxDone
  intro s hsend
  refine ⟨perform_txDone_ok_sSend hsend, _, perform_txDone_fail_sSend hsend, ?_⟩
  exact failedAttempt_recordCause .txerr Flag.txErr.mask .txFail s.tx.timer s

/-! ## A message in S_WAIT (R173 to R175) -/

section Delivered
variable {m : List Byte}

theorem perform_rxDeliver_ack (hwait : s.engine = .sWait) (hP : s.params.wf = true) :
    perform (.rxDeliver .ok (ackMsg s.tx.chunk true)) s = .next (s.setTxLast .acked).advance := by
  have hclass : decodeAck s.params.maxMsg (ackMsg s.tx.chunk true) s.tx.chunk = .matched true :=
    (matcherMatchesExactlyAwaitedAck _ _ _ true (Params.sixteen_le_maxMsg hP)).1.mpr rfl
  rw [perform_rxDeliver_sWait hwait, senderRxDeliver, hclass]

theorem perform_rxDeliver_err (hwait : s.engine = .sWait) (hP : s.params.wf = true) :
    perform (.rxDeliver .ok (ackMsg s.tx.chunk false)) s =
      .next (((s.cntInc .nak).setTxLast .nak).failAttempt .nak) := by
  have hclass : decodeAck s.params.maxMsg (ackMsg s.tx.chunk false) s.tx.chunk = .matched false :=
    (matcherMatchesExactlyAwaitedAck _ _ _ false (Params.sixteen_le_maxMsg hP)).1.mpr rfl
  rw [perform_rxDeliver_sWait hwait, senderRxDeliver, hclass]

/-- What makes a message stray, and the TX_LAST it leaves (R174). -/
def IsStray (e : BitVec 16) (m : List Byte) (r : TxLast) : Prop :=
  (∃ id ok, id ≠ e ∧ m = ackMsg id ok) ∧ r = .unmatched ∨ (∀ id ok, m ≠ ackMsg id ok) ∧ r = .notAnAck

theorem perform_rxDeliver_stray {r : TxLast} (hwait : s.engine = .sWait) (hP : s.params.wf = true)
    (hstray : IsStray s.tx.chunk m r) : perform (.rxDeliver .ok m) s = .next (s.stray r) := by
  obtain ⟨-, hunmatched, hnotAck⟩ :=
    matcherMatchesExactlyAwaitedAck s.params.maxMsg m s.tx.chunk true (Params.sixteen_le_maxMsg hP)
  rcases hstray with ⟨hother, rfl⟩ | ⟨hnone, rfl⟩
  · rw [perform_rxDeliver_sWait hwait, senderRxDeliver, hunmatched.mpr hother]
  · rw [perform_rxDeliver_sWait hwait, senderRxDeliver, hnotAck.mpr hnone]

end Delivered

/-- R175: after the last frame the sentinel is offered. -/
theorem State.advance_last (h : s.tx.chunk + 1 = s.tx.total) :
    s.advance =
      (({ s with tx := { s.tx with timer := 0, chunk := s.tx.chunk + 1 } } : State).offer sentinel).goto .sEnd :=
  if_pos h

/-- R175: after any other frame the next one is offered, as its first attempt. -/
theorem State.advance_next (h : s.tx.chunk + 1 ≠ s.tx.total) :
    s.advance =
      (({ s with tx := { s.tx with timer := 0, chunk := s.tx.chunk + 1, attempt := 1 } } : State).offerFrame
        (s.tx.chunk + 1)).goto .sSend :=
  if_neg h

/-- Settles O20: the matcher takes the acknowledgement, and `advance` offers what comes next. -/
theorem matchingAckAdvances : Obligations.MatchingAckAdvances := by
  unfold Obligations.MatchingAckAdvances
  refine fun s hwait hP => ⟨fun hlast => ?_, fun hnext => ?_⟩
  · have hadvance := State.advance_last (s := s.setTxLast .acked) hlast
    refine ⟨_, perform_rxDeliver_ack hwait hP, ?_⟩
    rw [hadvance]
    exact ⟨offers_of_offer rfl (by decide) rfl rfl, rfl⟩
  · have hadvance := State.advance_next (s := s.setTxLast .acked) hnext
    refine ⟨_, perform_rxDeliver_ack hwait hP, ?_⟩
    rw [hadvance]
    exact ⟨offers_of_offerFrame (s.tx.chunk + 1) rfl rfl, rfl⟩

/-- Settles O21: the matcher tells `ERR` from a stray message, and STRAY_POLICY decides whether the latter is a failed
attempt. -/
theorem errAndStrayMessages : Obligations.ErrAndStrayMessages := by
  unfold Obligations.ErrAndStrayMessages
  refine fun s m r hwait hP => ⟨⟨_, perform_rxDeliver_err hwait hP, failedAttempt_cntInc .nak .nak s⟩,
    fun hstray => ⟨fun hfails => ?_, fun hignores => ?_⟩⟩
  · have hcounted : s.stray r = ((s.cntInc .stray).setTxLast r).failAttempt r := if_pos hfails
    refine ⟨_, perform_rxDeliver_stray hwait hP hstray, ?_⟩
    rw [hcounted]
    exact failedAttempt_cntInc .stray r s
  · have hcounted : s.stray r = (s.cntInc .stray).setTxLast r := if_neg (by simp [hignores])
    rw [perform_rxDeliver_stray hwait hP hstray, hcounted]
    rfl

/-! ## The sentinel (R178) -/

/-- Settles O22: either way the session is over; FAIL sets FLAGS.TX_ERR before `finish` sets FLAGS.DONE. -/
theorem sentinelTxDone_endsSession : Obligations.SentinelTxDone := by
  unfold Obligations.SentinelTxDone
  intro s hend
  refine ⟨perform_txDone_sEnd hend .ok, ?_⟩
  have hmask : s.flags ||| Flag.txErr.mask ||| Flag.done.mask = s.flags ||| 0b0100000001#10 := BitVec.or_assoc ..
  rw [perform_txDone_sEnd hend .fail, sentinelTxDone, State.finish_eq]
  simp only [State.setFlag_flags, State.cntInc_flags, hmask]
  rfl

end Sys2Proof.Machine

/-! PROOFS. The receiver (spec/43_receiver.md R200 to R217): the start of a session, what VALIDATE answers to each kind of
message, the registers a stored frame leaves, completion on the sentinel, the acknowledgement's `TxDone`; a duplicate
delivery (R213), and what may change a slot (R219 item 2). -/

namespace Sys2Proof.Machine

variable {s t : State}

/-! ## Counters (R16, R46, R316) -/

theorem Counters.ext_get {k k' : Counters} (h : ∀ c, k.get c = k'.get c) : k = k' := by
  cases k
  cases k'
  rw [Counters.mk.injEq]
  exact ⟨h .txmsg, h .txerr, h .retry, h .timeout, h .nak, h .stray, h .rxok, h .malformed, h .csum, h .reject, h .dup,
    h .ooo⟩

theorem Counters.toNat_get_inc (c d : Counter) (k : Counters) :
    ((k.inc c).get d).toNat = if d = c then min ((k.get d).toNat + 1) 0xFFFF else (k.get d).toNat := by
  rw [Counters.get_inc]
  split
  · exact sat16Succ_toNat _
  · rfl

/-- A counter at 0xFFFF counts no further. -/
theorem Counters.inc_of_get_max {c : Counter} {k : Counters} (h : k.get c = 0xFFFF) : k.inc c = k := by
  refine Counters.ext_get fun d => ?_
  rw [Counters.get_inc]
  split
  · rename_i hd
    rw [hd, h]
    rfl
  · rfl

/-! ## Starting a receive session (R200 to R202) -/

/-- Settles O23: CHUNK_SIZE decides whether PREPARE passes, STATE whether the command is taken. -/
theorem startRecvBeginsEmpty : Obligations.StartRecvBeginsEmpty := by
  unfold Obligations.StartRecvBeginsEmpty
  refine fun s => ⟨fun hidle hzero => ?_, fun hidle hsize => ?_, fun hbusy => s.whenIdle_busy hbusy runStartRecv⟩
  · have hexec : exec .startRecv s = .next (runStartRecv s) := s.whenIdle_idle hidle runStartRecv
    have hv : s.validateRecv = 1 := if_pos hzero
    rw [EndsWithCfgError, hexec, runStartRecv, if_pos (by rw [hv]; decide), hv]
    rfl
  · have hexec : exec .startRecv s = .next (runStartRecv s) := s.whenIdle_idle hidle runStartRecv
    have hv : s.validateRecv = 0 := if_neg hsize
    rw [hexec, runStartRecv, if_neg (not_not.mpr hv)]
    rfl

/-! ## Messages that are not stored (R206, R207, R209, R211) -/

section Delivered
variable {m : List Byte} {F : Frame}

theorem perform_rxDeliver_malformed {e : Malformed} (he : s.engine = .rListen) (hend : m ≠ [0x45, 0x4E, 0x44])
    (hdecode : decodeFrame s.params.maxMsg m s.cfg.coding = .error e) :
    perform (.rxDeliver .ok m) s = .next (s.dropMalformed e) := by
  rw [perform_rxDeliver_rListen he, receiverRxDeliver, if_neg (mt isSentinel_iff.mp hend), hdecode]

/-- R204: a message that carries a frame is taken as that frame. -/
theorem perform_rxDeliver_carries (he : s.engine = .rListen) (hF : CarriesFrame s.params.maxMsg m s.cfg.coding F) :
    perform (.rxDeliver .ok m) s = .next (s.takeFrame F) := by
  rw [perform_rxDeliver_rListen he, receiverRxDeliver_of_decodeFrame (carriesFrame_iff.mp hF)]

theorem State.takeFrame_eq_nak (hsum : checksum F.data ≠ F.checksum) : s.takeFrame F = s.nakChecksum F := if_pos hsum

theorem State.takeFrame_eq_reject {r : Reject} (hsum : checksum F.data = F.checksum) (hF : s.acceptCheck F = some r) :
    s.takeFrame F = s.rejectFrame F r := by
  rw [State.takeFrame, if_neg (not_not.mpr hsum), hF]

/-- R207 and R211 end alike: the cause is counted, flagged and recorded, and `ERR` is offered. -/
theorem negativelyAcked_offer (s : State) (id : BitVec 16) (c : Counter) (f : Flag) (e : RxEvent) (d : BitVec 8) :
    NegativelyAcked s
      (((((s.cntInc c).setFlag f).setRxLast e d id).offer (ackMsg id false)).goto .rAck)
      id c f.mask { event := e, detail := d, id := id } :=
  ⟨offers_of_offer rfl ((ackMsg_length_le id false).trans (by decide)) rfl rfl, rfl⟩

theorem State.total_eq_of_known {n : BitVec 16} (h : s.rx.known = false ∨ n = s.rx.total) (hknown : s.rx.known = true) :
    n = s.rx.total := by
  rcases h with hunknown | heq
  · cases hknown.symm.trans hunknown
  · exact heq

/-- The first of the checks of R209 that fails, by its number. -/
theorem State.acceptCheck_eq_some {d : BitVec 8}
    (h : F.chunkId.toNat ≥ F.totalChunks.toNat ∧ d = 1 ∨
      F.chunkId.toNat < F.totalChunks.toNat ∧
        (F.totalChunks.toNat > s.params.maxChunks ∧ d = 2 ∨
          F.totalChunks.toNat ≤ s.params.maxChunks ∧
            (s.rx.known = true ∧ F.totalChunks ≠ s.rx.total ∧ d = 3 ∨
              (s.rx.known = false ∨ F.totalChunks = s.rx.total) ∧
                F.data.length > s.cfg.chunkSize.toNat ∧ d = 4))) :
    ∃ r : Reject, r.code = d ∧ s.acceptCheck F = some r := by
  rcases h with ⟨hrange, rfl⟩ | ⟨hrange, ⟨hcapacity, rfl⟩ |
    ⟨hcapacity, ⟨hknown, htotal, rfl⟩ | ⟨htotal, hsize, rfl⟩⟩⟩
  · exact ⟨.range, rfl, if_pos hrange⟩
  · exact ⟨.capacity, rfl, by rw [State.acceptCheck, if_neg (not_le.mpr hrange), if_pos hcapacity]⟩
  · refine ⟨.totalMismatch, rfl, ?_⟩
    rw [State.acceptCheck, if_neg (not_le.mpr hrange), if_neg (not_lt.mpr hcapacity), if_pos ⟨hknown, htotal⟩]
  · have hmatch : ¬ (s.rx.known = true ∧ F.totalChunks ≠ s.rx.total) := fun ⟨hknown, hne⟩ =>
      hne (State.total_eq_of_known htotal hknown)
    refine ⟨.oversize, rfl, ?_⟩
    rw [State.acceptCheck, if_neg (not_le.mpr hrange), if_neg (not_lt.mpr hcapacity), if_neg hmatch, if_pos hsize]

end Delivered

/-- Settles O25: the decoder's first failing check is the detail recorded. -/
theorem malformedMessageDropped : Obligations.MalformedMessageDropped := by
  unfold Obligations.MalformedMessageDropped
  intro s m d he hend hfails
  obtain ⟨e, rfl, hdecode⟩ := decodeFrame_of_failsDecode hfails
  exact perform_rxDeliver_malformed he hend hdecode

/-- Settles O26: VALIDATE compares the checksum before any check of R209. -/
theorem checksumMismatchNegativelyAcked : Obligations.ChecksumMismatchNegativelyAcked := by
  unfold Obligations.ChecksumMismatchNegativelyAcked
  intro s m F he hF hsum
  refine ⟨s.nakChecksum F, ?_, negativelyAcked_offer s F.chunkId .csum .csumErr .csumMismatch 0⟩
  rw [perform_rxDeliver_carries he hF, State.takeFrame_eq_nak hsum]

/-- Settles O27: the first failing check of `accept_check` is the detail recorded. -/
theorem rejectedFrameNegativelyAcked : Obligations.RejectedFrameNegativelyAcked := by
  unfold Obligations.RejectedFrameNegativelyAcked
  intro s m F d he hF hsum hchecks
  obtain ⟨r, rfl, hreject⟩ := State.acceptCheck_eq_some hchecks
  refine ⟨s.rejectFrame F r, ?_, negativelyAcked_offer s F.chunkId .reject .reject .rejected r.code⟩
  rw [perform_rxDeliver_carries he hF, State.takeFrame_eq_reject hsum hreject]

/-! ## Storing a frame (R210, R212, R214) -/

section Store
variable {F : Frame}

theorem State.learnTotal_eq (s : State) (n : BitVec 16) :
    s.learnTotal n = { s with rx := { s.rx with total := if s.rx.known then s.rx.total else n, known := true } } := by
  unfold State.learnTotal
  split
  · rename_i hunknown
    rw [hunknown]
    rfl
  · rename_i hknown
    have hknown : s.rx.known = true := by simpa using hknown
    rw [if_pos hknown, ← hknown]

/-- R214: a slot that is valid makes a duplicate, before RX_EXPECT is looked at. -/
theorem State.detect_eq (s : State) (i : BitVec 16) :
    s.detect i = { s with
      cnt := if s.valid i.toNat then s.cnt.inc .dup else if i = s.rx.expect then s.cnt else s.cnt.inc .ooo
      flags := if s.valid i.toNat then s.flags ||| Flag.dup.mask
               else if i = s.rx.expect then s.flags else s.flags ||| Flag.ooo.mask
      rx := { s.rx with expect := BitVec.ofNat 16 (max s.rx.expect.toNat (i.toNat + 1)) } } := by
  unfold State.detect State.arrival
  split_ifs <;> rfl

theorem State.arrival_code (s : State) (i : BitVec 16) :
    (s.arrival i).code = if s.valid i.toNat then 1 else if i = s.rx.expect then 0 else 2 := by
  unfold State.arrival
  split_ifs <;> rfl

/-- The slots and registers that `store(F)` writes, before its offer (R212). -/
def State.frameStored (F : Frame) (s : State) : State :=
  { s with
    slots := Sparse.set F.chunkId.toNat F.data s.slots
    cnt := (if s.valid F.chunkId.toNat then s.cnt.inc .dup
            else if F.chunkId = s.rx.expect then s.cnt else s.cnt.inc .ooo).inc .rxok
    flags := if s.valid F.chunkId.toNat then s.flags ||| Flag.dup.mask
             else if F.chunkId = s.rx.expect then s.flags else s.flags ||| Flag.ooo.mask
    rx :=
      { s.rx with
        total := if s.rx.known then s.rx.total else F.totalChunks
        known := true
        count := if s.valid F.chunkId.toNat then s.rx.count else s.rx.count + 1
        expect := BitVec.ofNat 16 (max s.rx.expect.toNat (F.chunkId.toNat + 1))
        last :=
          { event := .stored
            detail := if s.valid F.chunkId.toNat then 1 else if F.chunkId = s.rx.expect then 0 else 2
            id := F.chunkId } } }

/-- R212: `store(F)` writes the slot and the registers, then offers `ACK`. -/
theorem State.store_eq (s : State) (F : Frame) :
    s.store F = ((s.frameStored F).offer (ackMsg F.chunkId true)).goto .rAck := by
  simp only [State.store, State.arrival_code]
  rw [State.learnTotal_eq, State.detect_eq]
  rfl

theorem offers_store (s : State) (F : Frame) : Offers s (s.store F) (ackMsg F.chunkId true) := by
  rw [State.store_eq]
  exact offers_of_offer rfl ((ackMsg_length_le _ _).trans (by decide)) rfl rfl

theorem State.valid_store (s : State) (F : Frame) (i : Nat) :
    (s.store F).valid i = (s.valid i || decide (i = F.chunkId.toNat)) := by
  rw [State.store_eq]
  exact State.valid_writeSlot F.chunkId F.data s i

theorem State.slotData_store (s : State) (F : Frame) (i : Nat) :
    (s.store F).slotData i = if i = F.chunkId.toNat then F.data else s.slotData i := by
  rw [State.store_eq]
  exact State.slotData_writeSlot F.chunkId F.data s i

end Store

/-- Settles O28: every check passes, so VALIDATE stores the frame. -/
theorem acceptedFrameStored : Obligations.AcceptedFrameStored := by
  unfold Obligations.AcceptedFrameStored
  intro s m F he hF hsum hrange hcapacity htotal hsize
  have haccept := State.acceptCheck_of_fits hrange hcapacity (State.total_eq_of_known htotal) hsize
  have hperform := perform_rxDeliver_carries he hF
  rw [State.takeFrame_eq_store hsum haccept] at hperform
  refine ⟨s.store F, hperform, offers_store s F, s.valid_store F, s.slotData_store F, ?_⟩
  rw [State.store_eq]
  rfl

/-! ## The sentinel (R215) -/

/-- The smallest id below `n` whose slot is not valid. -/
theorem State.firstMissing_eq {n i : Nat} (hi : i < n) (hmissing : s.valid i = false)
    (hbelow : ∀ j, j < i → s.valid j = true) : s.firstMissing n = BitVec.ofNat 16 i := by
  have hfind : (List.range n).find? (fun i => !s.valid i) = some i := by
    rw [List.find?_range_eq_some]
    exact ⟨by simp [hmissing], List.mem_range.mpr hi, fun j hj => by simp [hbelow j hj]⟩
  rw [State.firstMissing, hfind]

theorem State.complete_all (hknown : s.rx.known = true) (hcount : s.rx.count = s.rx.total) :
    s.complete = { s with
      bufs := (s.memWrite .out 0 (s.assemble s.rx.total.toNat)).bufs
      engine := .idle
      result := { code := .recvAssembled, detail := 0 }
      flags := s.flags ||| Flag.done.mask
      tx := { s.tx with timer := 0 }
      rx := { s.rx with
        outLen := BitVec.ofNat 24 (s.assemble s.rx.total.toNat).length, firstMissing := 0xFFFF, missingCount := 0,
        last := { event := .sentinel, detail := 0, id := 0 } } } := by
  rw [State.complete, if_pos ⟨hknown, hcount⟩, State.finish_eq]
  rfl

theorem State.complete_unknown (hunknown : s.rx.known = false) :
    s.complete = ((s.setRxLast .sentinel 0 0).setMissing 0xFFFF 0).finish .recvIncomplete 1 :=
  (if_neg fun ⟨hknown, _⟩ => by cases hknown.symm.trans hunknown).trans (if_pos hunknown)

theorem State.complete_missing (hknown : s.rx.known = true) (hcount : s.rx.count ≠ s.rx.total) :
    s.complete =
      ((s.setRxLast .sentinel 0 0).setMissing (s.firstMissing s.rx.total.toNat) (s.rx.total - s.rx.count)).finish
        .recvIncomplete 2 :=
  (if_neg fun ⟨_, heq⟩ => hcount heq).trans (if_neg fun hunknown => by cases hknown.symm.trans hunknown)

/-- A state with the buffers of a write from address 0 on. -/
theorem bufferHolds_of_bufs {b : Buffer} {m : List Byte} (hbufs : t.bufs = (s.memWrite b 0 m).bufs)
    (hresets : t.resets = s.resets) : BufferHolds s t b m := by
  have hbyte : ∀ b' a, t.byteAt b' a = (s.memWrite b 0 m).byteAt b' a := fun b' =>
    State.byteAt_congr (by rw [hbufs]) hresets
  obtain ⟨hread, habove, hothers⟩ := s.bufferHolds_memWrite b m
  exact ⟨(State.memRead_congr fun i _ => hbyte b (0 + i)).trans hread, fun a ha => (hbyte b a).trans (habove a ha),
    fun b' hb a => (hbyte b' a).trans (hothers b' hb a)⟩

/-- Settles O29: RX_KNOWN and RX_COUNT choose between the three ends of `complete`. -/
theorem sentinelCompletes : Obligations.SentinelCompletes := by
  unfold Obligations.SentinelCompletes
  intro s out he hout
  obtain rfl : out = s.assemble s.rx.total.toNat := hout
  have hperform : perform (.rxDeliver .ok [0x45, 0x4E, 0x44]) s = .next s.complete := perform_rxDeliver_sentinel he
  refine ⟨fun hknown hcount => ⟨s.complete, hperform, ?_⟩, fun hunknown => ?_, fun hknown hcount =>
    ⟨s.complete, hperform, ?_⟩⟩
  · rw [State.complete_all hknown hcount]
    exact ⟨bufferHolds_of_bufs rfl rfl, rfl⟩
  · rw [hperform, State.complete_unknown hunknown]
    rfl
  · rw [State.complete_missing hknown hcount]
    exact ⟨fun i hi hmissing hbelow => State.firstMissing_eq hi hmissing hbelow, rfl⟩

/-! ## The acknowledgement's `TxDone` (R217) -/

/-- Settles O30: either status leads back to R_LISTEN; a counter counts by the saturating successor. -/
theorem ackTxDone : Obligations.AckTxDone := by
  unfold Obligations.AckTxDone
  exact ⟨fun s he => ⟨perform_txDone_rAck he .ok, perform_txDone_rAck he .fail⟩, fun k c d =>
    ⟨Counters.toNat_get_inc c d k, Counters.inc_of_get_max, rfl⟩⟩

@[simp] theorem receiverTxDone_slots (s : State) (st : Status) : (receiverTxDone st s).slots = s.slots := by
  cases st <;> rfl

@[simp] theorem receiverTxDone_rx (s : State) (st : Status) : (receiverTxDone st s).rx = s.rx := by
  cases st <;> rfl

theorem receiverTxDone_txmsg (s : State) (st : Status) :
    (receiverTxDone st s).memRead .txmsg 0 (receiverTxDone st s).txLen.toNat = s.memRead .txmsg 0 s.txLen.toNat := by
  cases st <;> rfl

/-! ## A duplicate delivery (R213) -/

/-- Setting an entry to what it is leaves the table. -/
theorem Sparse.set_of_get? {α : Type} {k : Nat} {x : α} {l : List (Nat × α)} (hwf : Sparse.wf l)
    (h : Sparse.get? k l = some x) : Sparse.set k x l = l := by
  refine Sparse.ext_of_wf (Sparse.wf_set hwf) hwf fun j => ?_
  rw [Sparse.get?_set]
  split
  · rename_i hj
    rw [hj, h]
  · rfl

/-- The receiver has stored this frame: its slot, the total and RX_EXPECT say so. -/
structure HasFrame (F : Frame) (s : State) : Prop where
  slot : Sparse.get? F.chunkId.toNat s.slots = some F.data
  known : s.rx.known = true
  total : s.rx.total = F.totalChunks
  expect : F.chunkId.toNat + 1 ≤ s.rx.expect.toNat

section Duplicate
variable {F : Frame} {m : List Byte}

theorem HasFrame.valid (h : HasFrame F s) : s.valid F.chunkId.toNat = true := by
  rw [State.valid, h.slot]
  rfl

theorem hasFrame_store (hF : s.acceptCheck F = none) : HasFrame F (s.store F) := by
  obtain ⟨hrange, -, htotal, -⟩ := State.acceptCheck_eq_none hF
  obtain ⟨hknown, hsame, -⟩ := State.store_rx htotal
  refine ⟨by rw [State.store_slots, Sparse.get?_set_same], hknown, hsame, ?_⟩
  have hexpect : (s.store F).rx.expect = BitVec.ofNat 16 (max s.rx.expect.toNat (F.chunkId.toNat + 1)) := by
    rw [State.store_eq]
    rfl
  rw [hexpect, BitVec.toNat_ofNat, Nat.mod_eq_of_lt (by omega)]
  exact le_max_right ..

theorem HasFrame.receiverTxDone (h : HasFrame F s) (st : Status) : HasFrame F (receiverTxDone st s) := by
  obtain ⟨hslot, hknown, htotal, hexpect⟩ := h
  constructor <;> simpa

/-- R213: storing the frame again changes no slot. -/
theorem HasFrame.store_slots (h : HasFrame F s) (hwf : Sparse.wf s.slots) : (s.store F).slots = s.slots := by
  rw [State.store_slots, Sparse.set_of_get? hwf h.slot]

/-- R213: of the receiver's registers, storing the frame again writes RX_LAST alone. -/
theorem HasFrame.store_rx (h : HasFrame F s) :
    (s.store F).rx = { s.rx with last := { event := .stored, detail := 1, id := F.chunkId } } := by
  have hexpect : BitVec.ofNat 16 (max s.rx.expect.toNat (F.chunkId.toNat + 1)) = s.rx.expect := by
    rw [max_eq_left h.expect, BitVec.ofNat_toNat, BitVec.setWidth_eq]
  have hrx : (s.store F).rx = (s.frameStored F).rx := by
    rw [State.store_eq]
    rfl
  rw [hrx, State.frameStored]
  simp [h.valid, h.known, hexpect]

/-- A frame that was accepted is accepted again. -/
theorem HasFrame.acceptCheck (h : HasFrame F t) (hfrozen : t.frozen = s.frozen) (hF : s.acceptCheck F = none) :
    t.acceptCheck F = none := by
  obtain ⟨hrange, hcapacity, -, hsize⟩ := State.acceptCheck_eq_none hF
  obtain ⟨hcfg, hparams, -, -⟩ := State.frozen_eq_iff.mp hfrozen
  exact State.acceptCheck_of_fits hrange (hparams ▸ hcapacity) (fun _ => h.total.symm) (hcfg ▸ hsize)

/-- An accepted frame and the `TxDone` of its acknowledgement. -/
theorem performAll_store (he : s.engine = .rListen) (hF : CarriesFrame s.params.maxMsg m s.cfg.coding F)
    (hsum : checksum F.data = F.checksum) (haccept : s.acceptCheck F = none) (st : Status) :
    s.performAll [.rxDeliver .ok m, .txDone st] = some (receiverTxDone st (s.store F)) := by
  have htaken := perform_rxDeliver_carries he hF
  rw [State.takeFrame_eq_store hsum haccept] at htaken
  rw [State.performAll_cons htaken, State.performAll_cons (perform_txDone_rAck (s.store_engine F) st)]
  rfl

end Duplicate

/-- Settles O55: after the first delivery the receiver has the frame, so the second accepts and stores what is there. -/
theorem duplicateDeliveryIdempotent : Obligations.DuplicateDeliveryIdempotent := by
  unfold Obligations.DuplicateDeliveryIdempotent
  intro s t u m F st st' hinv he hF hsum haccept ht hu
  obtain rfl : receiverTxDone st (s.store F) = t :=
    Option.some.inj ((performAll_store he hF hsum haccept st).symm.trans ht)
  generalize htdef : receiverTxDone st (s.store F) = t at hu ⊢
  have hlisten : t.engine = .rListen := htdef ▸ receiverTxDone_engine _ st
  have hhas : HasFrame F t := htdef ▸ (hasFrame_store haccept).receiverTxDone st
  have hfrozen : t.frozen = s.frozen := by rw [← htdef, receiverTxDone_frozen, State.store_frozen]
  have hwf : Sparse.wf t.slots := by
    rw [← htdef, receiverTxDone_slots, State.store_slots]
    exact Sparse.wf_set hinv.slots
  obtain ⟨hcfg, hparams, -, -⟩ := State.frozen_eq_iff.mp hfrozen
  have hFt : CarriesFrame t.params.maxMsg m t.cfg.coding F := by rwa [hparams, hcfg]
  obtain rfl : receiverTxDone st' (t.store F) = u :=
    Option.some.inj ((performAll_store hlisten hFt hsum (hhas.acceptCheck hfrozen haccept) st').symm.trans hu)
  have hack : (t.store F).memRead .txmsg 0 (t.store F).txLen.toNat = ackMsg F.chunkId true := by
    rw [State.store_eq]
    exact State.memRead_offer _ ((ackMsg_length_le _ _).trans (by decide))
  rw [receiverTxDone_txmsg, receiverTxDone_slots, receiverTxDone_rx, hhas.store_slots hwf, hhas.store_rx]
  exact ⟨rfl, rfl, rfl, rfl, rfl, rfl, hack⟩

/-! ## What may change a slot (R219 item 2) -/

@[simp] theorem State.failAttempt_slots (s : State) (r : TxLast) : (s.failAttempt r).slots = s.slots := by
  simp only [State.failAttempt]
  split <;> rfl

@[simp] theorem State.stray_slots (s : State) (r : TxLast) : (s.stray r).slots = s.slots := by
  simp only [State.stray]
  split
  · exact State.failAttempt_slots _ r
  · rfl

@[simp] theorem State.advance_slots (s : State) : s.advance.slots = s.slots := by
  simp only [State.advance]
  split <;> rfl

@[simp] theorem senderRxDeliver_slots (s : State) (st : Status) (m : List Byte) :
    (senderRxDeliver st m s).slots = s.slots := by
  unfold senderRxDeliver
  split
  · rfl
  · split
    · exact State.advance_slots _
    · exact State.failAttempt_slots _ .nak
    · exact s.stray_slots .unmatched
    · exact s.stray_slots .notAnAck

theorem tick_slots (s : State) : (tick s).slots = s.slots := by
  unfold tick
  split
  · simp only [senderTick]
    split
    · exact State.failAttempt_slots _ .timeout
    · rfl
  all_goals rfl

theorem txDone_slots {st : Status} (ht : txDone st s = .next t) : t.slots = s.slots := by
  rcases txDone_cases ht with ⟨-, ⟨-, rfl⟩ | ⟨-, rfl⟩⟩ | ⟨-, rfl⟩ | ⟨-, rfl⟩
  · rfl
  · exact State.failAttempt_slots _ .txFail
  · cases st <;> rfl
  · exact receiverTxDone_slots s st

@[simp] theorem State.complete_slots (s : State) : s.complete.slots = s.slots := by
  simp only [State.complete]
  split
  · rfl
  · split <;> rfl

/-- A host access leaves the slots or, where it starts or aborts a receive session, empties them. -/
theorem HostEffect.slots (h : HostEffect s t) : t.slots = s.slots ∨ t.slots = [] := by
  cases h with
  | undisturbed h => exact .inl h.slots
  | beginSend => exact .inl rfl
  | beginRecv => exact .inr rfl
  | abort =>
    unfold Machine.runAbort
    split
    · exact .inl rfl
    · exact .inl rfl
    · exact .inl rfl
    · exact .inl rfl
    · exact .inr rfl
    · exact .inr rfl

/-- The message carries a frame that passes checksum and acceptance in `s`, and `t` has stored it. -/
def StoresChecked (m : List Byte) (s t : State) : Prop :=
  ∃ F, CarriesFrame s.params.maxMsg m s.cfg.coding F ∧ checksum F.data = F.checksum ∧ s.acceptCheck F = none ∧
    t = s.store F

/-- R204: of what VALIDATE can do with a message, only `store` writes a slot. -/
theorem receiverRxDeliver_slots (s : State) (st : Status) (m : List Byte) :
    (receiverRxDeliver st m s).slots = s.slots ∨ (st = .ok ∧ StoresChecked m s (receiverRxDeliver st m s)) := by
  cases st with
  | fail => exact .inl rfl
  | ok =>
    simp only [receiverRxDeliver]
    split
    · exact .inl s.complete_slots
    · split
      · exact .inl rfl
      · rename_i F hdecode
        by_cases hsum : checksum F.data = F.checksum
        · cases haccept : s.acceptCheck F with
          | some r =>
            rw [State.takeFrame_eq_reject hsum haccept]
            exact .inl rfl
          | none =>
            have hstore := State.takeFrame_eq_store hsum haccept
            exact .inr ⟨trivial, F, carriesFrame_iff.mpr hdecode, hsum, haccept, hstore⟩
        · rw [State.takeFrame_eq_nak hsum]
          exact .inl rfl

/-- All an event can do to the slots: leave them, empty them, or store a checked frame. -/
theorem perform_slots {e : Event} (ht : perform e s = .next t) :
    t.slots = s.slots ∨ t.slots = [] ∨ (s.engine = .rListen ∧ ∃ m, e = .rxDeliver .ok m ∧ StoresChecked m s t) := by
  cases e with
  | reset => cases ht; exact .inr (.inl rfl)
  | hostWrite off v => exact (HostEffect.hostWrite ht).slots.imp_right .inl
  | hostRead off => cases ht; exact .inl (Undisturbed.hostRead s off).slots
  | tick => cases ht; exact .inl (tick_slots s)
  | txDone st => exact .inl (txDone_slots ht)
  | rxDeliver st m =>
    rcases rxDeliver_cases ht with ⟨-, rfl⟩ | ⟨hlisten, rfl⟩
    · exact .inl (senderRxDeliver_slots s st m)
    · exact (receiverRxDeliver_slots s st m).imp_right fun ⟨hok, hstores⟩ => .inr ⟨hlisten, m, by rw [hok], hstores⟩

/-- Slots that are as before, or empty, make no slot valid and change no valid slot's data. -/
theorem valid_and_slotData_of_slots {i : Nat} (h : t.slots = s.slots ∨ t.slots = []) (hvalid : t.valid i = true) :
    s.valid i = true ∧ t.slotData i = s.slotData i := by
  rcases h with hsame | hempty
  · rw [State.valid, hsame] at hvalid
    exact ⟨hvalid, by rw [State.slotData, hsame, ← State.slotData]⟩
  · simp [State.valid, hempty] at hvalid

/-- Storing a frame makes no other slot valid and changes no other slot's data. -/
theorem eq_chunkId_of_store_changed {F : Frame} {i : Nat} (hvalid : (s.store F).valid i = true)
    (hchanged : s.valid i = false ∨ (s.store F).slotData i ≠ s.slotData i) : i = F.chunkId.toNat := by
  by_contra hother
  rcases hchanged with hnew | hdata
  · simp [State.valid_store, hnew, hother] at hvalid
  · exact hdata (by rw [State.slotData_store, if_neg hother])

/-- Settles O46: of all events only the delivery of a checked frame in R_LISTEN writes a slot, and it writes its own. -/
theorem slotsHoldOnlyCheckedFrames : Obligations.SlotsHoldOnlyCheckedFrames := by
  unfold Obligations.SlotsHoldOnlyCheckedFrames
  intro s t i ht hvalid hchanged
  have unchanged (h : t.slots = s.slots ∨ t.slots = []) : False := by
    obtain ⟨hbefore, hdata⟩ := valid_and_slotData_of_slots h hvalid
    rcases hchanged with hnew | hne
    · cases hbefore.symm.trans hnew
    · exact hne hdata
  rcases step_cases ht with ⟨-, rfl⟩ | ⟨e, rest, hinputs, hperform⟩
  · exact (unchanged (.inl rfl)).elim
  · rcases perform_slots hperform with hsame | hempty | ⟨hlisten, m, rfl, F, hF, hsum, haccept, rfl⟩
    · exact (unchanged (.inl hsame)).elim
    · exact (unchanged (.inr hempty)).elim
    · have hi := eq_chunkId_of_store_changed hvalid hchanged
      refine ⟨hlisten, m, F, by rw [hinputs]; rfl, hF, hsum, haccept, hi, ?_⟩
      rw [State.slotData_store, if_pos hi]

end Sys2Proof.Machine

/-! PROOFS. The control commands (spec/44_control.md R240 to R242) and the table of STATE's transitions (R243). -/

namespace Sys2Proof.Machine

variable {s t : State}

/-! ## How STATE may move (R243) -/

/-- One move of STATE: an event may leave STATE as it is or end in IDLE, and seven further moves have a cause each. -/
inductive EngineMove : EngineState → EngineState → Prop
  | stay (e : EngineState) : EngineMove e e
  | toIdle (e : EngineState) : EngineMove e .idle
  | startSend : EngineMove .idle .sSend
  | startRecv : EngineMove .idle .rListen
  | frameSent : EngineMove .sSend .sWait
  | frameOffered : EngineMove .sWait .sSend
  | sentinelOffered : EngineMove .sWait .sEnd
  | frameAnswered : EngineMove .rListen .rAck
  | answerSent : EngineMove .rAck .rListen

/-- The moves are among the pairs that R243 and `Reset` allow. -/
theorem EngineMove.mem_transitions {a b : EngineState} (h : EngineMove a b) :
    (a, b) ∈
      [(EngineState.idle, EngineState.idle), (.idle, .sSend), (.idle, .rListen),
        (.sSend, .sSend), (.sSend, .sWait), (.sSend, .idle),
        (.sWait, .sWait), (.sWait, .sSend), (.sWait, .sEnd), (.sWait, .idle),
        (.sEnd, .sEnd), (.sEnd, .idle),
        (.rListen, .rListen), (.rListen, .rAck), (.rListen, .idle),
        (.rAck, .rAck), (.rAck, .rListen), (.rAck, .idle)] := by
  cases h with
  | stay => cases a <;> decide
  | toIdle => cases a <;> decide
  | _ => decide

theorem EngineMove.of_eq (h : t.engine = s.engine) : EngineMove s.engine t.engine := h ▸ .stay _

theorem EngineMove.of_idle (h : t.engine = .idle) : EngineMove s.engine t.engine := h ▸ .toIdle _

/-! ## The sender -/

/-- R164: the frame is offered again, or the transfer ends. -/
theorem State.failAttempt_engine (s : State) (r : TxLast) :
    (s.failAttempt r).engine = .sSend ∨ (s.failAttempt r).engine = .idle := by
  simp only [State.failAttempt]
  split
  · exact .inl rfl
  · exact .inr rfl

theorem EngineMove.failAttempt (hs : s.engine = .sSend ∨ s.engine = .sWait) (t : State) (r : TxLast) :
    EngineMove s.engine (t.failAttempt r).engine := by
  rcases t.failAttempt_engine r with hagain | hend
  · rcases hs with hsend | hwait
    · exact .of_eq (hagain.trans hsend.symm)
    · rw [hwait, hagain]
      exact .frameOffered
  · exact .of_idle hend

theorem EngineMove.stray (hwait : s.engine = .sWait) (r : TxLast) : EngineMove s.engine (s.stray r).engine := by
  simp only [State.stray]
  split
  · exact .failAttempt (.inr hwait) _ r
  · exact .stay _

/-- R175: the sentinel is offered after the last frame, and the next frame after any other. -/
theorem EngineMove.advance (hwait : s.engine = .sWait) (t : State) : EngineMove s.engine t.advance.engine := by
  rw [hwait]
  simp only [State.advance]
  split
  · exact .sentinelOffered
  · exact .frameOffered

theorem EngineMove.senderTick (hwait : s.engine = .sWait) : EngineMove s.engine (senderTick s).engine := by
  simp only [Machine.senderTick]
  split
  · exact .failAttempt (.inr hwait) _ .timeout
  · exact .stay _

theorem EngineMove.senderRxDeliver (hwait : s.engine = .sWait) (st : Status) (m : List Byte) :
    EngineMove s.engine (senderRxDeliver st m s).engine := by
  unfold Machine.senderRxDeliver
  split
  · exact .stay _
  · split
    · exact .advance hwait _
    · exact .failAttempt (.inr hwait) _ .nak
    · exact .stray hwait .unmatched
    · exact .stray hwait .notAnAck

theorem sentinelTxDone_engine (s : State) (st : Status) : (sentinelTxDone st s).engine = .idle := by
  cases st <;> rfl

/-! ## The receiver -/

/-- R215: the sentinel ends the session, whatever has arrived. -/
theorem State.complete_engine (s : State) : s.complete.engine = .idle := by
  simp only [State.complete]
  split
  · rfl
  · split <;> rfl

/-- R204: every decoded frame is answered. -/
theorem State.takeFrame_engine (s : State) (F : Frame) : (s.takeFrame F).engine = .rAck := by
  unfold State.takeFrame
  split
  · rfl
  · split
    · rfl
    · exact s.store_engine F

theorem EngineMove.receiverRxDeliver (hlisten : s.engine = .rListen) (st : Status) (m : List Byte) :
    EngineMove s.engine (receiverRxDeliver st m s).engine := by
  unfold Machine.receiverRxDeliver
  split
  · exact .stay _
  · split
    · exact .of_idle s.complete_engine
    · split
      · exact .stay _
      · rw [hlisten, State.takeFrame_engine]
        exact .frameAnswered

/-! ## The control commands (R240 to R242) -/

theorem runAbort_idle (hidle : s.engine = .idle) : runAbort s = s := by
  simp only [runAbort, hidle]

theorem runAbort_sender (hs : s.inSenderSession) :
    runAbort s = (s.setTxTimer 0).finish .cancelled (s.engine.code.setWidth 8) := by
  rcases hs with he | he | he <;> simp only [runAbort, he]

theorem runAbort_receiver (hs : s.inReceiverSession) :
    runAbort s = s.emptyReassembly.finish .cancelled (s.engine.code.setWidth 8) := by
  rcases hs with he | he <;> simp only [runAbort, he]

/-- R241: whatever runs, `ABORT` ends in IDLE. -/
theorem runAbort_engine (s : State) : (runAbort s).engine = .idle := by
  unfold runAbort
  split
  · assumption
  all_goals rfl

@[simp] theorem Counters.get_zero (c : Counter) : Counters.zero.get c = 0 := by
  cases c <;> rfl

/-- Settles O5: the arm of `NOP` answers the state it is given. -/
theorem nopChangesNothing : Obligations.NopChangesNothing := by
  unfold Obligations.NopChangesNothing
  exact fun _ => rfl

/-- Settles O6: nothing in IDLE; in a session `finish(CANCELLED, s)`, with the reassembly buffer emptied in a receiver. -/
theorem abortCancelsTheSession : Obligations.AbortCancelsTheSession := by
  unfold Obligations.AbortCancelsTheSession
  have habort (s : State) : exec .abort s = .next (runAbort s) := rfl
  refine fun s => ⟨fun hidle => ?_, fun hs => ?_, fun hs => ?_⟩
  · rw [habort, runAbort_idle hidle]
  · rw [habort, runAbort_sender hs]
    rfl
  · rw [habort, runAbort_receiver hs]
    rfl

/-- Settles O7: an IDLE-only command, whose effect puts every counter to 0. -/
theorem clearEmptiesResultFlagsCounters : Obligations.ClearEmptiesResultFlagsCounters := by
  unfold Obligations.ClearEmptiesResultFlagsCounters
  exact fun s => ⟨fun hidle => ⟨runClear s, s.whenIdle_idle hidle runClear, rfl, Counters.get_zero⟩,
    fun hbusy => s.whenIdle_busy hbusy runClear⟩

/-! ## Events and steps -/

theorem HostEffect.engineMove (h : HostEffect s t) : EngineMove s.engine t.engine := by
  cases h with
  | undisturbed h => exact .of_eq h.engine
  | beginSend hidle => rw [hidle]; exact .startSend
  | beginRecv hidle => rw [hidle]; exact .startRecv
  | abort => exact .of_idle (runAbort_engine s)

theorem EngineMove.tick (s : State) : EngineMove s.engine (tick s).engine := by
  by_cases hwait : s.engine = .sWait
  · rw [tick_sWait hwait]
    exact .senderTick hwait
  · rw [tick_of_ne_sWait hwait]
    exact .stay _

theorem EngineMove.rxDeliver {st : Status} {m : List Byte} (ht : rxDeliver st m s = .next t) :
    EngineMove s.engine t.engine := by
  rcases rxDeliver_cases ht with ⟨hwait, rfl⟩ | ⟨hlisten, rfl⟩
  · exact .senderRxDeliver hwait st m
  · exact .receiverRxDeliver hlisten st m

theorem EngineMove.txDone {st : Status} (ht : txDone st s = .next t) : EngineMove s.engine t.engine := by
  rcases txDone_cases ht with ⟨hsend, ⟨-, rfl⟩ | ⟨-, rfl⟩⟩ | ⟨-, rfl⟩ | ⟨hack, rfl⟩
  · rw [hsend]
    exact .frameSent
  · exact .failAttempt (.inl hsend) _ .txFail
  · exact .of_idle (sentinelTxDone_engine s st)
  · rw [hack, receiverTxDone_engine]
    exact .answerSent

theorem EngineMove.perform {e : Event} (ht : perform e s = .next t) : EngineMove s.engine t.engine := by
  cases e with
  | reset => cases ht; exact .toIdle _
  | hostWrite off v => exact (HostEffect.hostWrite ht).engineMove
  | hostRead off => cases ht; exact .of_eq (Undisturbed.hostRead s off).engine
  | tick => cases ht; exact .tick s
  | rxDeliver st m => exact .rxDeliver ht
  | txDone st => exact .txDone ht

/-- Settles O40: every event makes one move of STATE, and every move is in the table. -/
theorem engineTransitions : Obligations.EngineTransitions := by
  unfold Obligations.EngineTransitions
  intro s t ht
  refine EngineMove.mem_transitions ?_
  rcases step_cases ht with ⟨-, rfl⟩ | ⟨e, rest, -, hperform⟩
  · exact .stay _
  · exact EngineMove.perform (s := { s with inputs := rest, reply := none }) hperform

end Sys2Proof.Machine

/-! PROOFS. Two blocks on a link that corrupts nothing (spec/60_exceptions.md R275). Each half of the transfer keeps an
invariant of its own, and the link holds only messages that one half offered and the other may take: what the sender
is acknowledged, the receiver has in a slot (spec/42_sender.md R179, spec/43_receiver.md R219). -/

namespace Sys2Proof.Machine

variable {s t : State}

/-! ## Events of an undisturbed block -/

/-- The events left to a block whose host only reads: no `Reset` and no write. -/
def Event.quiet : Event → Bool
  | .reset | .hostWrite _ _ => false
  | .hostRead _ | .tick | .rxDeliver _ _ | .txDone _ => true

/-- R62, R66: a read changes the flags, the port and the reply alone. -/
theorem hostRead_eq (s : State) (off : BitVec 8) :
    ∃ fl port reply, hostRead off s = { s with flags := fl, port := port, reply := reply } := by
  unfold hostRead
  split
  · exact ⟨_, _, _, rfl⟩
  · simp only [State.readPort]
    split
    · exact ⟨_, _, _, rfl⟩
    · exact ⟨_, _, _, rfl⟩
  · exact ⟨_, _, _, rfl⟩

/-- R274: in IDLE a `Tick` changes nothing, and the transport's events are not enabled. -/
theorem perform_idle {e : Event} (hidle : s.engine = .idle) (hquiet : e.quiet = true)
    (ht : perform e s = .next t) : t = s ∨ ∃ off, e = .hostRead off := by
  cases e with
  | reset => cases hquiet
  | hostWrite off v => cases hquiet
  | hostRead off => exact .inr ⟨off, rfl⟩
  | tick =>
    rw [perform, tick_of_ne_sWait (by rw [hidle]; decide)] at ht
    cases ht
    exact .inl rfl
  | rxDeliver st m =>
    rw [perform_rxDeliver_fault (by rw [hidle]; rfl)] at ht
    cases ht
  | txDone st =>
    rw [perform_txDone_fault (by rw [hidle]; rfl)] at ht
    cases ht

theorem perform_idle_engine {e : Event} (hidle : s.engine = .idle) (hquiet : e.quiet = true)
    (ht : perform e s = .next t) : t.engine = .idle := by
  rcases perform_idle hidle hquiet ht with rfl | ⟨off, rfl⟩
  · exact hidle
  · cases ht
    rw [(Undisturbed.hostRead s off).engine, hidle]

theorem hostRead_frozen (s : State) (off : BitVec 8) : (hostRead off s).frozen = s.frozen := by
  obtain ⟨fl, port, reply, heq⟩ := hostRead_eq s off
  rw [heq]
  rfl

theorem perform_quiet_frozen {e : Event} (hquiet : e.quiet = true) (ht : perform e s = .next t) :
    t.frozen = s.frozen := by
  cases e with
  | reset => cases hquiet
  | hostWrite off v => cases hquiet
  | hostRead off => cases ht; exact hostRead_frozen s off
  | tick => cases ht; exact tick_frozen s
  | rxDeliver st m => exact rxDeliver_frozen ht
  | txDone st => exact txDone_frozen ht

/-! ## Messages of a transfer -/

theorem ackMsg_inj {i j : BitVec 16} {ok ok' : Bool} (h : ackMsg i ok = ackMsg j ok') : i = j ∧ ok = ok' := by
  have hi := (parseAck_eq_some_iff (le_refl 16)).mpr (rfl : ackMsg i ok = _)
  have hj := (parseAck_eq_some_iff (le_refl 16)).mpr h
  simp_all

/-- A payload and a chunk size that PREPARE accepts for the coding (R161): each frame is carried, and no count wraps. -/
structure Sendable (c : Coding) (P : List Byte) (S : Nat) : Prop where
  nonempty : 1 ≤ P.length
  short : P.length < 2 ^ 24
  chunkPos : 1 ≤ S
  countFits : chunkCount P.length S ≤ 65535
  carried : Carried c P

section Transfer
variable {c : Coding} {P : List Byte} {S i : Nat}

theorem Carried.chunkOf (h : Carried c P) (S i : Nat) : Carried c (chunkOf P S i) := by
  intro htext
  have hall := List.all_eq_true.mp (h htext)
  exact List.all_eq_true.mpr fun b hb => hall b (List.mem_of_mem_drop (List.mem_of_mem_take hb))

/-- Whatever the size of the block's transport, a message of a frame is decoded as no other frame. -/
theorem eq_of_decodeFrame_frameMsg {M : Nat} {F F' : Frame} (hF : Carried c F.data)
    (h : decodeFrame M (frameMsg F c) c = .ok F') : F' = F := by
  obtain ⟨-, hfields⟩ := decodeFrame_eq_ok_iff.mp h
  have hwide : decodeFrame (frameMsg F c).length (frameMsg F c) c = .ok F' :=
    decodeFrame_eq_ok_iff.mpr ⟨le_rfl, hfields⟩
  have hencode : encodeFrame (frameMsg F c).length F c = .ok (frameMsg F c) :=
    encodeFrame_eq_ok_iff.mpr ⟨hF, le_rfl, rfl⟩
  exact Except.ok.inj (hwide.symm.trans (decodeOfEncodeIsTheFrame _ _ _ _ hencode))

/-! ## The sender's half -/

/-- The block was set up with this coding, chunk size and payload. -/
structure SetUp (c : Coding) (P : List Byte) (S : Nat) (s : State) : Prop where
  coding : s.cfg.coding = c
  chunkSize : s.cfg.chunkSize.toNat = S
  payload : s.memRead .payload 0 s.cfg.payloadLen.toNat = P

theorem SetUp.length_eq (h : SetUp c P S s) : P.length = s.cfg.payloadLen.toNat := by
  rw [← h.payload, State.memRead_length]

theorem SetUp.congr (h : SetUp c P S s) (hfrozen : t.frozen = s.frozen) : SetUp c P S t := by
  obtain ⟨hcfg, -, hpayload, hresets⟩ := State.frozen_eq_iff.mp hfrozen
  exact ⟨by rw [hcfg, h.coding], by rw [hcfg, h.chunkSize], by
    rw [hcfg, ← h.payload]
    exact State.memRead_congr fun i _ => State.byteAt_congr hpayload hresets _⟩

/-- What a sender session offers: the frame of TX_CHUNK, at the end the sentinel (R163, R175). -/
def State.sessionMessage (s : State) : List Byte :=
  if s.engine = .sEnd then sentinel else frameMsg (s.sendFrame s.tx.chunk) s.cfg.coding

theorem State.sessionMessage_sSend (h : s.engine = .sSend) :
    s.sessionMessage = frameMsg (s.sendFrame s.tx.chunk) s.cfg.coding := if_neg (by rw [h]; decide)

theorem State.sessionMessage_sEnd (h : s.engine = .sEnd) : s.sessionMessage = sentinel := if_pos h

/-- The transmit port presents what the session offers. -/
def State.OffersSession (s : State) : Prop := ∀ m, s.txPort = some m → m = s.sessionMessage

theorem State.txPort_eq_none (h : s.engine.offering = false) : s.txPort = none := by
  rw [State.txPort, h]
  rfl

theorem State.offersSession_of_not_offering (h : s.engine.offering = false) : s.OffersSession := by
  intro m hm
  rw [State.txPort_eq_none h] at hm
  cases hm

theorem State.sendFrame_congr (hfrozen : t.frozen = s.frozen) (htotal : t.tx.total = s.tx.total) (k : BitVec 16) :
    t.sendFrame k = s.sendFrame k := by
  obtain ⟨hcfg, -, hpayload, hresets⟩ := State.frozen_eq_iff.mp hfrozen
  have hchunk : ∀ k, t.payloadChunk k = s.payloadChunk k := fun k => by
    simp only [State.payloadChunk, hcfg]
    exact State.memRead_congr fun i _ => State.byteAt_congr hpayload hresets _
  rw [State.sendFrame, State.sendFrame, hchunk, htotal]

theorem State.offersSession_offerFrame (s : State) : ((s.offerFrame s.tx.chunk).goto .sSend).OffersSession := by
  obtain ⟨hport, -, -⟩ := offers_of_offerFrame (s := s) (t := s) s.tx.chunk rfl rfl
  have hfrozen : ((s.offerFrame s.tx.chunk).goto .sSend).frozen = s.frozen := by simp
  have htx : ((s.offerFrame s.tx.chunk).goto .sSend).tx = s.tx := by simp [State.offerFrame]
  have hcfg : ((s.offerFrame s.tx.chunk).goto .sSend).cfg = s.cfg := by simp [State.offerFrame]
  have hframe := State.sendFrame_congr hfrozen (by rw [htx]) s.tx.chunk
  intro m hm
  rw [State.sessionMessage_sSend rfl, htx, hcfg, hframe]
  rw [hport, frameBytes_eq_frameMsg] at hm
  exact (Option.some.inj hm).symm

theorem State.offersSession_failAttempt (s : State) (r : TxLast) : (s.failAttempt r).OffersSession := by
  simp only [State.failAttempt]
  split
  · exact State.offersSession_offerFrame _
  · exact State.offersSession_of_not_offering rfl

theorem State.offersSession_advance (s : State) : s.advance.OffersSession := by
  by_cases hlast : s.tx.chunk + 1 = s.tx.total
  · intro m hm
    obtain ⟨hport, -, -⟩ := offers_of_offer (s := { s with tx := { s.tx with timer := 0, chunk := s.tx.chunk + 1 } })
      (m := sentinel) (e := .sEnd) rfl (by decide) rfl rfl
    rw [State.advance_last hlast] at hm ⊢
    rw [hport] at hm
    exact (Option.some.inj hm).symm.trans (State.sessionMessage_sEnd rfl).symm
  · rw [State.advance_next hlast]
    exact State.offersSession_offerFrame
      { s with tx := { s.tx with timer := 0, chunk := s.tx.chunk + 1, attempt := 1 } }

theorem State.offersSession_stray (s : State) (hwait : s.engine = .sWait) (r : TxLast) : (s.stray r).OffersSession := by
  simp only [State.stray]
  split
  · exact State.offersSession_failAttempt _ r
  · exact State.offersSession_of_not_offering (by simp [hwait, EngineState.offering])

theorem State.offersSession_senderTick (s : State) (hwait : s.engine = .sWait) : (senderTick s).OffersSession := by
  simp only [senderTick]
  split
  · exact State.offersSession_failAttempt _ .timeout
  · exact State.offersSession_of_not_offering (by simp [hwait, EngineState.offering])

/-- R173: in S_WAIT nothing is offered, so a message that changes nothing leaves nothing offered. -/
theorem State.offersSession_senderRxDeliver (s : State) (hwait : s.engine = .sWait) (st : Status) (m : List Byte) :
    (senderRxDeliver st m s).OffersSession := by
  unfold senderRxDeliver
  split
  · exact State.offersSession_of_not_offering (by simp [hwait, EngineState.offering])
  · split
    · exact State.offersSession_advance _
    · exact State.offersSession_failAttempt _ .nak
    · exact s.offersSession_stray hwait .unmatched
    · exact s.offersSession_stray hwait .notAnAck

/-- The sender's half of a transfer of `P`, in chunks of `S` bytes and under coding `c`. -/
structure Sending (c : Coding) (P : List Byte) (S : Nat) (s : State) : Prop where
  inv : Inv s
  setUp : SetUp c P S s
  phase : s.engine = .idle ∨ s.inSenderSession
  offers : s.OffersSession

theorem Sending.not_receiving (h : Sending c P S s) : ¬ s.inReceiverSession := by
  obtain ⟨-, -, hphase, -⟩ := h
  rintro (hlisten | hack)
  · simp [State.inSenderSession, hlisten] at hphase
  · simp [State.inSenderSession, hack] at hphase

/-- R243: a sender session goes on as one or ends. -/
theorem EngineMove.of_sender {e e' : EngineState} (h : EngineMove e e') (he : e = .sSend ∨ e = .sWait ∨ e = .sEnd) :
    e' = .idle ∨ e' = .sSend ∨ e' = .sWait ∨ e' = .sEnd := by
  cases h with
  | stay => exact .inr he
  | _ => simp_all

theorem Sending.perform {e : Event} (h : Sending c P S s) (hquiet : e.quiet = true) (ht : perform e s = .next t) :
    Sending c P S t where
  inv := h.inv.perform ht
  setUp := h.setUp.congr (perform_quiet_frozen hquiet ht)
  phase := by
    rcases h.phase with hidle | hsession
    · exact .inl (perform_idle_engine hidle hquiet ht)
    · exact (EngineMove.perform ht).of_sender hsession
  offers := by
    cases e with
    | reset => cases hquiet
    | hostWrite off v => cases hquiet
    | hostRead off =>
      obtain ⟨fl, port, reply, heq⟩ := hostRead_eq s off
      cases ht
      rw [heq]
      exact h.offers
    | tick =>
      cases ht
      by_cases hwait : s.engine = .sWait
      · rw [tick_sWait hwait]
        exact s.offersSession_senderTick hwait
      · rw [tick_of_ne_sWait hwait]
        exact h.offers
    | rxDeliver st m =>
      rcases rxDeliver_cases ht with ⟨hwait, rfl⟩ | ⟨hlisten, -⟩
      · exact s.offersSession_senderRxDeliver hwait st m
      · exact absurd (.inl hlisten) h.not_receiving
    | txDone st =>
      rcases txDone_cases ht with ⟨-, ⟨-, rfl⟩ | ⟨-, rfl⟩⟩ | ⟨-, rfl⟩ | ⟨hack, -⟩
      · exact State.offersSession_of_not_offering rfl
      · exact State.offersSession_failAttempt _ .txFail
      · exact State.offersSession_of_not_offering (by rw [sentinelTxDone_engine]; rfl)
      · exact absurd (.inr hack) h.not_receiving

/-- R163: the frame a session sends for a chunk is the payload's fragment. -/
theorem Sending.sendFrame_eq (h : Sending c P S s) (hs : s.inSenderSession) {k : BitVec 16}
    (hk : k.toNat < s.tx.total.toNat) : k.toNat < chunkCount P.length S ∧ s.sendFrame k = frameOf P S k.toNat := by
  obtain ⟨-, htotal⟩ := h.inv.validated hs
  have hfragment := State.fragment_getElem?_sendFrame htotal hk
  rw [h.setUp.payload, h.setUp.chunkSize] at hfragment
  exact fragment_getElem?_eq_some_iff.mp hfragment

/-! ## What the link holds -/

/-- What the sender may have offered: a frame of the payload; or, once the receiver `s` has every chunk, the sentinel. -/
def FromSender (c : Coding) (P : List Byte) (S : Nat) (s : State) (m : List Byte) : Prop :=
  (∃ i, i < chunkCount P.length S ∧ m = frameMsg (frameOf P S i) c) ∨
    m = sentinel ∧ ∀ i, i < chunkCount P.length S → s.valid i = true

/-- What the receiver `s` may have offered: a positive acknowledgement is of a frame it has stored. -/
def FromReceiver (s : State) (m : List Byte) : Prop := ∀ id, m = ackMsg id true → s.valid id.toNat = true

/-- No slot of `s` was given up. -/
def SlotsKept (s t : State) : Prop := ∀ i, s.valid i = true → t.valid i = true

theorem SlotsKept.of_slots (h : t.slots = s.slots) : SlotsKept s t := fun i hi => by rwa [State.valid, h]

theorem FromSender.mono {m : List Byte} (h : FromSender c P S s m) (hkept : SlotsKept s t) : FromSender c P S t m :=
  h.imp_right fun ⟨hm, hall⟩ => ⟨hm, fun i hi => hkept i (hall i hi)⟩

theorem FromReceiver.mono {m : List Byte} (h : FromReceiver s m) (hkept : SlotsKept s t) : FromReceiver t m :=
  fun id hm => hkept _ (h id hm)

theorem fromReceiver_nak (s : State) (id : BitVec 16) : FromReceiver s (ackMsg id false) := by
  intro id' hm
  obtain ⟨-, hok⟩ := ackMsg_inj hm
  cases hok

/-! ## The receiver's half -/

/-- The session ended with the payload in `OUT` (R215). -/
structure Assembled (P : List Byte) (s : State) : Prop where
  idle : s.engine = .idle
  result : s.result = { code := .recvAssembled, detail := 0 }
  outLen : s.rx.outLen.toNat = P.length
  out : s.memRead .out 0 P.length = P

/-- The receiver's half of a transfer: every valid slot holds its chunk, only stored frames are acknowledged, and the
session is running or ended with the payload assembled. -/
structure Collecting (c : Coding) (P : List Byte) (S : Nat) (s : State) : Prop where
  inv : Inv s
  coding : s.cfg.coding = c
  total : s.rx.known = true → s.rx.total.toNat = chunkCount P.length S
  data : ∀ i, s.valid i = true → s.slotData i = chunkOf P S i
  offers : ∀ m, s.txPort = some m → FromReceiver s m
  phase : s.inReceiverSession ∨ Assembled P s

theorem State.fromReceiver_of_not_offering (h : s.engine.offering = false) (m : List Byte) (hm : s.txPort = some m) :
    FromReceiver s m := by
  rw [State.txPort_eq_none h] at hm
  cases hm

/-- What leaves the slots and the total leaves what was collected. -/
theorem Collecting.of_slots (h : Collecting c P S s) (hinv : Inv t) (hfrozen : t.frozen = s.frozen)
    (hsame : (t.slots, t.rx.known, t.rx.total) = (s.slots, s.rx.known, s.rx.total))
    (hoffers : ∀ m, t.txPort = some m → FromReceiver t m) (hphase : t.inReceiverSession ∨ Assembled P t) :
    Collecting c P S t ∧ SlotsKept s t := by
  simp only [Prod.mk.injEq] at hsame
  obtain ⟨hslots, hknown, htotal⟩ := hsame
  obtain ⟨hcfg, -, -, -⟩ := State.frozen_eq_iff.mp hfrozen
  refine ⟨⟨hinv, by rw [hcfg, h.coding], fun hk => ?_, fun i hi => ?_, hoffers, hphase⟩, .of_slots hslots⟩
  · rw [htotal]
    exact h.total (hknown ▸ hk)
  · rw [State.valid, hslots] at hi
    rw [State.slotData, hslots]
    exact h.data i hi

/-- R212: an accepted frame of the payload adds its chunk, and its acknowledgement is offered. -/
theorem Collecting.store (h : Collecting c P S s) (hP : Sendable c P S) (hi : i < chunkCount P.length S)
    (hlisten : s.engine = .rListen) (haccept : s.acceptCheck (frameOf P S i) = none) :
    Collecting c P S (s.store (frameOf P S i)) ∧ SlotsKept s (s.store (frameOf P S i)) := by
  obtain ⟨hid, hcount⟩ := makeFrame_toNat hi hP.countFits (chunkOf P S i)
  obtain ⟨-, -, hsame, -⟩ := State.acceptCheck_eq_none haccept
  obtain ⟨-, htotal, -⟩ := State.store_rx hsame
  obtain ⟨hcfg, -, -, -⟩ := State.frozen_eq_iff.mp (s.store_frozen (frameOf P S i))
  obtain ⟨hport, -, -⟩ := offers_store s (frameOf P S i)
  refine ⟨⟨(h.inv.receiving (.inl hlisten)).store haccept, by rw [hcfg, h.coding], fun _ => by rw [htotal, hcount],
    fun j hj => ?_, fun m hm id hack => ?_, .inl (.inr (s.store_engine _))⟩, fun j hj => ?_⟩
  · rw [State.slotData_store, hid]
    split
    · rename_i hji
      rw [hji]
      rfl
    · rename_i hji
      rw [State.valid_store, hid] at hj
      exact h.data j (by simpa [hji] using hj)
  · rw [hport] at hm
    obtain ⟨rfl, -⟩ := ackMsg_inj ((Option.some.inj hm).trans hack)
    simp [State.valid_store]
  · simp [State.valid_store, hj]

/-- R204: whatever the acceptance check says of a frame of the payload, the slots stay right. -/
theorem Collecting.takeFrame (h : Collecting c P S s) (hP : Sendable c P S) (hi : i < chunkCount P.length S)
    (hlisten : s.engine = .rListen) :
    Collecting c P S (s.takeFrame (frameOf P S i)) ∧ SlotsKept s (s.takeFrame (frameOf P S i)) := by
  cases haccept : s.acceptCheck (frameOf P S i) with
  | none =>
    rw [State.takeFrame_eq_store rfl haccept]
    exact h.store hP hi hlisten haccept
  | some r =>
    have hinv := (h.inv.receiving (.inl hlisten)).takeFrame (frameOf P S i)
    rw [State.takeFrame_eq_reject rfl haccept] at hinv ⊢
    refine h.of_slots hinv (by simp [State.rejectFrame]) (by simp [State.rejectFrame]) (fun m hm => ?_)
      (.inl (.inr rfl))
    obtain ⟨⟨hport, -, -⟩, -⟩ := negativelyAcked_offer s (frameOf P S i).chunkId .reject .reject .rejected r.code
    rw [← Option.some.inj (hport.symm.trans hm)]
    exact fromReceiver_nak _ _

/-- RX_COUNT is the number of the first ids that are valid. -/
theorem Stored.count_eq {n : Nat} (h : Stored s) (hvalid : ∀ i, s.valid i = true ↔ i < n) : s.rx.count.toNat = n := by
  have hnodup : (s.slots.map Prod.fst).Nodup := h.slots.imp fun hlt => ne_of_lt hlt
  have hperm : (s.slots.map Prod.fst).Perm (List.range n) :=
    (List.perm_ext_iff_of_nodup hnodup List.nodup_range).mpr fun i => by
      rw [← Sparse.get?_isSome, List.mem_range]
      exact hvalid i
  rw [h.count]
  simpa using hperm.length_eq

/-- R215: the sentinel finds every chunk in its slot and puts the payload together. -/
theorem Collecting.complete (h : Collecting c P S s) (hP : Sendable c P S)
    (hall : ∀ i, i < chunkCount P.length S → s.valid i = true) :
    Collecting c P S s.complete ∧ SlotsKept s s.complete := by
  have hpos : 0 < chunkCount P.length S :=
    chunkCount_pos (Nat.one_le_iff_ne_zero.mp hP.chunkPos) (Nat.one_le_iff_ne_zero.mp hP.nonempty)
  obtain ⟨hknown, -⟩ := h.inv.validKnown 0 (hall 0 hpos)
  have htotal := h.total hknown
  have hcount : s.rx.count.toNat = chunkCount P.length S :=
    h.inv.stored.count_eq fun i => ⟨fun hi => htotal ▸ (h.inv.validKnown i hi).2, hall i⟩
  have hassemble : s.assemble (chunkCount P.length S) = P := by
    calc s.assemble (chunkCount P.length S)
        = (List.range (chunkCount P.length S)).flatMap (chunkOf P S) :=
          List.flatMap_congr fun i hi => h.data i (hall i (List.mem_range.mp hi))
      _ = P := flatMap_chunkOf_range_chunkCount P hP.chunkPos
  have heq : s.rx.count = s.rx.total := BitVec.eq_of_toNat_eq (hcount.trans htotal.symm)
  obtain ⟨hidle, hresult, hout, hread⟩ := State.complete_assembled hknown heq
  rw [htotal, hassemble] at hout hread
  have hassembled : Assembled P s.complete :=
    ⟨hidle, hresult, by rw [hout, BitVec.toNat_ofNat, Nat.mod_eq_of_lt hP.short], hread⟩
  refine h.of_slots h.inv.stored.complete s.complete_frozen ?_
    (State.fromReceiver_of_not_offering (by rw [hidle]; rfl)) (.inr hassembled)
  rw [State.complete_all hknown heq]

theorem frameMsg_ne_sentinel (F : Frame) (c : Coding) : frameMsg F c ≠ sentinel := by
  intro h
  have hbar : bar ∈ frameMsg F c := by simp [frameMsg]
  rw [h] at hbar
  exact absurd hbar (by decide)

/-- R204 to R215: a message of the sender is taken as what it is, or dropped where it is too long for the block. -/
theorem Collecting.takeMessage {m : List Byte} (h : Collecting c P S s) (hP : Sendable c P S)
    (hlisten : s.engine = .rListen) (hm : FromSender c P S s m) :
    Collecting c P S (receiverRxDeliver .ok m s) ∧ SlotsKept s (receiverRxDeliver .ok m s) := by
  rcases hm with ⟨i, hi, rfl⟩ | ⟨rfl, hall⟩
  · have hend : ¬ isSentinel (frameMsg (frameOf P S i) c) = true :=
      mt isSentinel_iff.mp (frameMsg_ne_sentinel _ c)
    have hinv := h.inv.receiverRxDeliver hlisten .ok (frameMsg (frameOf P S i) c)
    simp only [receiverRxDeliver, if_neg hend, h.coding] at hinv ⊢
    cases hdecode : decodeFrame s.params.maxMsg (frameMsg (frameOf P S i) c) c with
    | error d =>
      rw [hdecode] at hinv
      exact h.of_slots hinv (by simp [State.dropMalformed]) rfl
        (State.fromReceiver_of_not_offering (by simp [State.dropMalformed, hlisten, EngineState.offering]))
        (.inl (.inl hlisten))
    | ok F =>
      obtain rfl := eq_of_decodeFrame_frameMsg (hP.carried.chunkOf S i) hdecode
      exact h.takeFrame hP hi hlisten
  · exact h.complete hP hall

theorem Collecting.not_sending (h : Collecting c P S s) : ¬ s.inSenderSession := by
  rcases h.phase with (he | he) | ⟨he, -, -, -⟩
  all_goals simp [State.inSenderSession, he]

/-- The receiver's half goes on through every event of its own and every message of the sender. -/
theorem Collecting.perform {e : Event} (h : Collecting c P S s) (hP : Sendable c P S) (hquiet : e.quiet = true)
    (hm : ∀ m, e = .rxDeliver .ok m → FromSender c P S s m) (ht : perform e s = .next t) :
    Collecting c P S t ∧ SlotsKept s t := by
  have hwait : s.engine ≠ .sWait := fun he => h.not_sending (.inr (.inl he))
  cases e with
  | reset => cases hquiet
  | hostWrite off v => cases hquiet
  | hostRead off =>
    have hinv := h.inv.perform ht
    obtain ⟨fl, port, reply, heq⟩ := hostRead_eq s off
    cases ht
    rw [heq] at hinv ⊢
    exact h.of_slots hinv rfl rfl h.offers (h.phase.imp_right fun hend => { hend with })
  | tick =>
    rw [Machine.perform, tick_of_ne_sWait hwait] at ht
    cases ht
    exact ⟨h, .of_slots rfl⟩
  | rxDeliver st m =>
    rcases rxDeliver_cases ht with ⟨he, -⟩ | ⟨hlisten, rfl⟩
    · exact absurd he hwait
    · cases st with
      | ok => exact h.takeMessage hP hlisten (hm m rfl)
      | fail => exact ⟨h, .of_slots rfl⟩
  | txDone st =>
    have hinv := h.inv.perform ht
    rcases txDone_cases ht with ⟨he, -⟩ | ⟨he, -⟩ | ⟨-, rfl⟩
    · exact absurd (.inl he) h.not_sending
    · exact absurd (.inr (.inr he)) h.not_sending
    · have hlisten := receiverTxDone_engine s st
      exact h.of_slots hinv (receiverTxDone_frozen s st) (by simp)
        (State.fromReceiver_of_not_offering (by rw [hlisten]; rfl)) (.inl (.inl hlisten))

/-! ## The two halves on the link (R275) -/

/-- What the link may deliver to a side. -/
def System.Admits (c : Coding) (P : List Byte) (S : Nat) (y : System) (side : Side) (m : List Byte) : Prop :=
  match side with
  | .a => FromReceiver y.b m
  | .b => FromSender c P S y.b m

/-- A transfer of `P` from A to B in progress: both halves are right, every chunk below A's TX_CHUNK is in B's slots, and
the link holds only messages it may deliver. -/
structure System.Transferring (c : Coding) (P : List Byte) (S : Nat) (y : System) : Prop where
  sending : Sending c P S y.a
  collecting : Collecting c P S y.b
  acked : y.a.inSenderSession → ∀ i, i < y.a.tx.chunk.toNat → y.b.valid i = true
  held : ∀ side, ∀ m ∈ y.held side, y.Admits c P S side m

/-- The hosts only read, so what happens at a block alone is a read or a `Tick`. -/
theorem quiet_of_faithful {side : Side} {e : Event} (h : (LinkMove.own side e).faithful = true) :
    e.quiet = true ∧ ∀ m, e ≠ .rxDeliver .ok m := by
  cases e with
  | tick => exact ⟨rfl, fun m he => by cases he⟩
  | hostRead off => exact ⟨rfl, fun m he => by cases he⟩
  | _ => cases h

namespace System.Transferring
variable {y z : System} {side : Side} {m : List Byte}

/-- What a block offers may be delivered to the other: the frame of TX_CHUNK, the sentinel after the last chunk was
acknowledged, and the acknowledgements of R207, R211 and R212. -/
theorem admits_of_txPort (h : y.Transferring c P S) (hm : (y.block side).txPort = some m) :
    y.Admits c P S side.other m := by
  cases side with
  | b => exact h.collecting.offers m hm
  | a =>
    have hm : y.a.txPort = some m := hm
    have hoffer := h.sending.offers m hm
    rcases h.sending.phase with hidle | hsend | hwait | hend
    · rw [State.txPort_eq_none (by rw [hidle]; rfl)] at hm
      cases hm
    · have hchunk := (h.sending.inv.transfer (.inl hsend)).chunk
      obtain ⟨hi, hframe⟩ := h.sending.sendFrame_eq (.inl hsend) hchunk
      rw [State.sessionMessage_sSend hsend, hframe, h.sending.setUp.coding] at hoffer
      exact .inl ⟨_, hi, hoffer⟩
    · rw [State.txPort_eq_none (by rw [hwait]; rfl)] at hm
      cases hm
    · have hsession : y.a.inSenderSession := .inr (.inr hend)
      obtain ⟨-, htotal⟩ := h.sending.inv.validated hsession
      rw [← h.sending.inv.ending hend, ← h.sending.setUp.length_eq, h.sending.setUp.chunkSize] at htotal
      rw [State.sessionMessage_sEnd hend] at hoffer
      exact .inr ⟨hoffer, fun i hi => h.acked hsession i (htotal ▸ hi)⟩

theorem setHeld (h : y.Transferring c P S) {l : List (List Byte)} (hl : ∀ m ∈ l, y.Admits c P S side m) :
    (y.setHeld side l).Transferring c P S := by
  obtain ⟨hsending, hcollecting, hacked, hheld⟩ := h
  cases side with
  | a =>
    refine ⟨hsending, hcollecting, hacked, fun side' => ?_⟩
    cases side' with
    | a => exact hl
    | b => exact hheld .b
  | b =>
    refine ⟨hsending, hcollecting, hacked, fun side' => ?_⟩
    cases side' with
    | a => exact hheld .a
    | b => exact hl

/-- R179: A's TX_CHUNK goes up only past a chunk that is in B's slots. -/
theorem eventA {e : Event} {t : State} (h : y.Transferring c P S) (hquiet : e.quiet = true)
    (hm : ∀ m, e = .rxDeliver .ok m → FromReceiver y.b m) (ht : perform e y.a = .next t) :
    ({ y with a := t } : System).Transferring c P S where
  sending := h.sending.perform hquiet ht
  collecting := h.collecting
  acked := by
    intro hsession i hi
    rcases h.sending.phase with hidle | hbefore
    · exact absurd (perform_idle_engine hidle hquiet ht) hsession.ne_idle
    · have hreset : e ≠ .reset := by
        rintro rfl
        cases hquiet
      rcases perform_chunk hbefore hreset ht with hsame | ⟨-, hnext, rfl⟩
      · exact h.acked hbefore i (hsame ▸ hi)
      · rcases lt_or_eq_of_le (show i ≤ y.a.tx.chunk.toNat by rw [hnext] at hi; bv_omega) with hlt | rfl
        · exact h.acked hbefore i hlt
        · exact hm _ rfl _ rfl
  held := h.held

theorem eventB {e : Event} {t : State} (h : y.Transferring c P S) (hP : Sendable c P S) (hquiet : e.quiet = true)
    (hm : ∀ m, e = .rxDeliver .ok m → FromSender c P S y.b m) (ht : perform e y.b = .next t) :
    ({ y with b := t } : System).Transferring c P S := by
  obtain ⟨hcollecting, hkept⟩ := h.collecting.perform hP hquiet hm ht
  refine ⟨h.sending, hcollecting, fun hsession i hi => hkept i (h.acked hsession i hi), fun side m hm => ?_⟩
  have hbefore := h.held side m hm
  cases side with
  | a => exact FromReceiver.mono hbefore hkept
  | b => exact FromSender.mono hbefore hkept

theorem event {e : Event} (h : y.Transferring c P S) (hP : Sendable c P S) (hquiet : e.quiet = true)
    (hm : ∀ m, e = .rxDeliver .ok m → y.Admits c P S side m) (hz : y.event side e = some z) :
    z.Transferring c P S := by
  unfold System.event at hz
  split at hz
  · rename_i t ht
    cases hz
    cases side with
    | a => exact h.eventA hquiet hm ht
    | b => exact h.eventB hP hquiet hm ht
  · cases hz
  · cases hz

/-- Every move of R275's hosts and of a link that corrupts nothing. -/
theorem move {mv : LinkMove} (h : y.Transferring c P S) (hP : Sendable c P S) (hfaithful : mv.faithful = true)
    (hz : y.move mv = some z) : z.Transferring c P S := by
  cases mv with
  | own side e =>
    obtain ⟨hquiet, hnone⟩ := quiet_of_faithful hfaithful
    simp only [System.move] at hz
    split at hz
    · exact h.event hP hquiet (fun m he => absurd he (hnone m)) hz
    · cases hz
  | take side =>
    simp only [System.move] at hz
    split at hz
    · cases hz
    · rename_i m hport
      have hl : ∀ m' ∈ y.held side.other ++ [m], y.Admits c P S side.other m' := by
        intro m' hm'
        rcases List.mem_append.mp hm' with hm' | hm'
        · exact h.held _ m' hm'
        · rw [List.mem_singleton.mp hm']
          exact h.admits_of_txPort hport
      exact (h.setHeld hl).event hP rfl (by simp) hz
  | takeFail side => exact h.event hP rfl (by simp) hz
  | deliver side n =>
    simp only [System.move] at hz
    split at hz
    · cases hz
    · rename_i m hget
      have hl : ∀ m' ∈ (y.held side).eraseIdx n, y.Admits c P S side m' := fun m' hm' =>
        h.held side m' (List.mem_of_mem_eraseIdx hm')
      refine (h.setHeld hl).event hP rfl (fun m' he => ?_) hz
      cases he
      have hadmits := h.held side m (List.mem_of_getElem? hget)
      cases side <;> exact hadmits
  | rxFail side => exact h.event hP rfl (by simp) hz
  | lose side n =>
    cases hz
    exact h.setHeld fun m' hm' => h.held side m' (List.mem_of_mem_eraseIdx hm')
  | duplicate side n =>
    simp only [System.move] at hz
    split at hz
    · cases hz
    · rename_i m hget
      cases hz
      refine h.setHeld fun m' hm' => ?_
      rcases List.mem_append.mp hm' with hm' | hm'
      · exact h.held side m' hm'
      · rw [List.mem_singleton.mp hm']
        exact h.held side m (List.mem_of_getElem? hget)
  | corrupt side n m => cases hfaithful

theorem run {moves : List LinkMove} (h : y.Transferring c P S) (hP : Sendable c P S)
    (hfaithful : ∀ mv ∈ moves, mv.faithful = true) (hz : y.run moves = some z) : z.Transferring c P S := by
  induction moves generalizing y with
  | nil =>
    cases hz
    exact h
  | cons mv moves ih =>
    rw [System.run] at hz
    split at hz
    · cases hz
    · rename_i y' hmove
      exact ih (h.move hP (hfaithful mv (by simp)) hmove) (fun mv' hmem => hfaithful mv' (by simp [hmem])) hz

end System.Transferring

/-! ## The start of a transfer -/

theorem State.sendable_of_validateSend (hv : s.validateSend = 0) :
    Sendable s.cfg.coding (s.memRead .payload 0 s.cfg.payloadLen.toNat) s.cfg.chunkSize.toNat := by
  obtain ⟨hS, -, -, hL, -, hn, hsafe, -⟩ := s.validateSend_eq_zero.mp hv
  have hlt := s.cfg.payloadLen.isLt
  exact ⟨by simpa using Nat.one_le_iff_ne_zero.mpr hL, by simpa using hlt, Nat.one_le_iff_ne_zero.mpr hS,
    by simpa using hn, hsafe⟩

theorem exec_startSend (hidle : s.engine = .idle) (hv : s.validateSend = 0) : exec .startSend s = .next s.beginSend := by
  have hexec : exec .startSend s = .next (runStartSend s) := s.whenIdle_idle hidle runStartSend
  rw [hexec, runStartSend, if_neg (not_not.mpr hv)]

theorem exec_startRecv (hidle : s.engine = .idle) (hsize : s.cfg.chunkSize ≠ 0) :
    exec .startRecv s = .next s.beginRecv := by
  have hexec : exec .startRecv s = .next (runStartRecv s) := s.whenIdle_idle hidle runStartRecv
  have hv : s.validateRecv = 0 := if_neg hsize
  rw [hexec, runStartRecv, if_neg (not_not.mpr hv)]

/-- R162: the session begins with frame 0 on offer and no chunk acknowledged. -/
theorem sending_beginSend (h : Inv s) (hv : s.validateSend = 0) :
    Sending s.cfg.coding (s.memRead .payload 0 s.cfg.payloadLen.toNat) s.cfg.chunkSize.toNat s.beginSend where
  inv := h.beginSend hv
  setUp := by
    have hfrozen : s.beginSend.frozen = s.frozen := by
      rw [State.beginSend_eq, State.goto_frozen, State.offerFrame_frozen]
      rfl
    exact (⟨rfl, rfl, rfl⟩ : SetUp _ _ _ s).congr hfrozen
  phase := .inr (.inl rfl)
  offers := State.offersSession_offerFrame s.sendStarted

/-- R202: the session begins with every slot empty. -/
theorem collecting_beginRecv (h : Inv s) (hidle : s.engine = .idle) : Collecting s.cfg.coding P S s.beginRecv where
  inv := h.beginRecv hidle
  coding := rfl
  total := fun hk => by cases hk
  data := fun i hi => by cases hi
  offers := State.fromReceiver_of_not_offering rfl
  phase := .inl (.inl rfl)

end Transfer

/-- Settles O60: every move keeps both halves right, and a receiver no longer in its session has assembled the payload.
The sizes are not needed: a receiver they do not fit acknowledges nothing, and so it is never sent the sentinel. -/
theorem twoBlockTransferDelivers : Obligations.TwoBlockTransferDelivers := by
  unfold Obligations.TwoBlockTransferDelivers
  intro a b a' b' moves y ha hb hidleA hidleB hv hsize hstartA hstartB hcoding _ _ hfaithful hrun _ hend
  cases (exec_startSend hidleA hv).symm.trans hstartA
  cases (exec_startRecv hidleB hsize).symm.trans hstartB
  have hstart : ({ a := a.beginSend, b := b.beginRecv, toA := [], toB := [] } : System).Transferring a.cfg.coding
      (a.memRead .payload 0 a.cfg.payloadLen.toNat) a.cfg.chunkSize.toNat :=
    { sending := sending_beginSend ha hv
      collecting := hcoding ▸ collecting_beginRecv hb hidleB
      acked := fun _ i hi => absurd hi (Nat.not_lt_zero i)
      held := fun side m hm => by cases side <;> cases hm }
  have htransfer := hstart.run (State.sendable_of_validateSend hv) hfaithful hrun
  rcases htransfer.collecting.phase with (he | he) | hassembled
  · cases he.symm.trans hend
  · cases he.symm.trans hend
  · obtain ⟨-, hresult, hout, hread⟩ := hassembled
    rw [State.memRead_length] at hout hread
    exact ⟨hresult, hout, hread⟩

end Sys2Proof.Machine

/-! PROOFS. FLAGS, RESULT and the end of a session (spec/60_exceptions.md R260 to R274). What one event can do to them is
said once: the session goes on, or `finish` ends it; or the host's write, or a `Reset`, clears flags. -/

namespace Sys2Proof.Machine

variable {s t u : State} {e : Event}

/-! ## In IDLE (R274) -/

/-- Settles O44: in IDLE a `Tick` does nothing, and no event of the transport is enabled. -/
theorem idleChangesOnlyByHostOrReset : Obligations.IdleChangesOnlyByHostOrReset := by
  unfold Obligations.IdleChangesOnlyByHostOrReset
  intro s t e rest hidle hinputs hreset hwrite hread ht
  have ht : perform e { s with inputs := rest, reply := none } = .next t := step_of_input hinputs ▸ ht
  have hquiet : e.quiet = true := by
    cases e with
    | reset => exact absurd rfl hreset
    | hostWrite off v => exact absurd rfl (hwrite off v)
    | _ => rfl
  rcases perform_idle (s := { s with inputs := rest, reply := none }) hidle hquiet ht with hsame | ⟨off, rfl⟩
  · exact hsame
  · exact absurd rfl (hread off)

/-! ## The flags that are followed -/

/-- CMD_ERR and HOST_ERR are not cleared. -/
def ErrorsKept (s t : State) : Prop :=
  ∀ f : Flag, f = .cmdErr ∨ f = .hostErr → s.hasFlag f = true → t.hasFlag f = true

theorem ErrorsKept.of_flags (h : t.flags = s.flags) : ErrorsKept s t := fun f _ hf => by rwa [State.hasFlag, h]

/-- R31: a flag that is set clears no other. -/
theorem ErrorsKept.setFlag (h : ErrorsKept s t) (g : Flag) : ErrorsKept s (t.setFlag g) := fun f hf hs => by
  rw [State.hasFlag_setFlag, h f hf hs, Bool.true_or]

theorem ErrorsKept.trans (h : ErrorsKept s t) (h' : ErrorsKept t u) : ErrorsKept s u := fun f hf hs =>
  h' f hf (h f hf hs)

theorem errorsKept_clearSessionFlags (s : State) : ErrorsKept s s.clearSessionFlags := fun f hf hs => by
  rcases hf with rfl | rfl <;> simp [State.hasFlag_clearSessionFlags, hs]

/-- A session that runs is not ended, FLAGS.DONE is not raised, and the error flags stay. -/
structure GoesOn (s t : State) : Prop where
  engine : t.engine = .idle → s.engine = .idle
  done : t.hasFlag .done = true → s.hasFlag .done = true
  errors : ErrorsKept s t

namespace GoesOn

theorem of_flags (hengine : t.engine = .idle → s.engine = .idle) (hflags : t.flags = s.flags) : GoesOn s t :=
  ⟨hengine, fun h => by rwa [State.hasFlag, hflags] at h, .of_flags hflags⟩

theorem refl (s : State) : GoesOn s s := of_flags id rfl

theorem of_undisturbed (h : Undisturbed s t) (hflags : t.flags = s.flags) : GoesOn s t :=
  of_flags (fun hidle => h.engine ▸ hidle) hflags

theorem trans (h : GoesOn s t) (h' : GoesOn t u) : GoesOn s u :=
  ⟨h.engine ∘ h'.engine, h.done ∘ h'.done, h.errors.trans h'.errors⟩

theorem setFlag (h : GoesOn s t) {f : Flag} (hf : f ≠ .done) : GoesOn s (t.setFlag f) where
  engine := h.engine
  done hdone := h.done (by simpa [State.hasFlag_setFlag, Ne.symm hf] using hdone)
  errors := h.errors.setFlag f

/-! Operations that write neither a flag nor STATE; `goto` to any STATE but IDLE. -/

theorem cntInc (h : GoesOn s t) (c : Counter) : GoesOn s (t.cntInc c) := h.trans (of_flags id rfl)
theorem setTxLast (h : GoesOn s t) (r : TxLast) : GoesOn s (t.setTxLast r) := h.trans (of_flags id rfl)
theorem setTxTimer (h : GoesOn s t) (v : BitVec 16) : GoesOn s (t.setTxTimer v) := h.trans (of_flags id rfl)
theorem withTx (h : GoesOn s t) (tx : SenderRegs) : GoesOn s { t with tx := tx } := h.trans (of_flags id rfl)
theorem setRxLast (h : GoesOn s t) (ev : RxEvent) (d : BitVec 8) (i : BitVec 16) : GoesOn s (t.setRxLast ev d i) :=
  h.trans (of_flags id rfl)
theorem withRx (h : GoesOn s t) (rx : ReceiverRegs) : GoesOn s { t with rx := rx } := h.trans (of_flags id rfl)
theorem setMissing (h : GoesOn s t) (f c : BitVec 16) : GoesOn s (t.setMissing f c) := h.trans (of_flags id rfl)
theorem writeSlot (h : GoesOn s t) (i : BitVec 16) (d : List Byte) : GoesOn s (t.writeSlot i d) :=
  h.trans (of_flags id rfl)
theorem memWrite (h : GoesOn s t) (b : Buffer) (a : Nat) (x : List Byte) : GoesOn s (t.memWrite b a x) :=
  h.trans (of_flags id rfl)
theorem offer (h : GoesOn s t) (m : List Byte) : GoesOn s (t.offer m) := h.trans (of_flags id rfl)
theorem offerFrame (h : GoesOn s t) (k : BitVec 16) : GoesOn s (t.offerFrame k) := h.offer _
theorem portAdvance (h : GoesOn s t) : GoesOn s t.portAdvance := h.trans (of_flags id rfl)
theorem replyWith (h : GoesOn s t) (v : Word) : GoesOn s (t.replyWith v) := h.trans (of_flags id rfl)
theorem goto (h : GoesOn s t) {e : EngineState} (he : e ≠ .idle) : GoesOn s (t.goto e) :=
  h.trans (of_flags (fun hidle => absurd hidle he) rfl)

theorem hostError (s : State) : GoesOn s s.hostError := (refl s).setFlag (by decide)

theorem refuseCommand (s : State) : GoesOn s s.refuseCommand := (refl s).setFlag (by decide)

/-- R162, R202: a session begins with DONE cleared and the error flags as they were. -/
theorem of_begun (hbusy : t.engine ≠ .idle) (hflags : t.flags = s.clearSessionFlags.flags) : GoesOn s t where
  engine hidle := absurd hidle hbusy
  done hdone := by
    have hcleared : s.clearSessionFlags.hasFlag .done = true := by rwa [State.hasFlag, hflags] at hdone
    simp [State.hasFlag_clearSessionFlags] at hcleared
  errors := (errorsKept_clearSessionFlags s).trans (.of_flags hflags)

end GoesOn

/-- What an event that clears no flag does to a session: it goes on, or `finish` ends it with an outcome of a session
(R263). -/
inductive SessionStep (s : State) : State → Prop
  | goesOn {t : State} (h : GoesOn s t) : SessionStep s t
  | finished {u : State} {code : ResultCode} {detail : BitVec 8} (h : GoesOn s u)
      (hcode : code ≠ .none ∧ code ≠ .cfgError) : SessionStep s (u.finish code detail)

/-! ## The events of a session -/

/-- R164: another attempt, or the end with SEND_RETRY_EXHAUSTED. -/
theorem SessionStep.failAttempt (h : GoesOn s t) (r : TxLast) : SessionStep s (t.failAttempt r) := by
  have hstopped := h.setTxTimer 0
  simp only [State.failAttempt]
  split
  · exact .goesOn (((((hstopped.withTx _).cntInc .retry).setFlag (by decide)).offerFrame _).goto (by decide))
  · exact .finished (hstopped.withTx _) (by decide)

/-- R172: a Tick that ends the wait is a failed attempt. -/
theorem SessionStep.tick (s : State) : SessionStep s (Machine.tick s) := by
  by_cases hwait : s.engine = .sWait
  · have hcounted := (GoesOn.refl s).setTxTimer (s.tx.timer - 1)
    rw [tick_sWait hwait]
    simp only [senderTick]
    split
    · exact .failAttempt ((hcounted.cntInc .timeout).setTxLast .timeout) .timeout
    · exact .goesOn hcounted
  · rw [tick_of_ne_sWait hwait]
    exact .goesOn (.refl s)

theorem SessionStep.stray (s : State) (r : TxLast) : SessionStep s (s.stray r) := by
  have hmarked := ((GoesOn.refl s).cntInc .stray).setTxLast r
  simp only [State.stray]
  split
  · exact .failAttempt hmarked r
  · exact .goesOn hmarked

/-- R175: the next frame or the sentinel is offered. -/
theorem GoesOn.advance (h : GoesOn s t) : GoesOn s t.advance := by
  by_cases hlast : t.tx.chunk + 1 = t.tx.total
  · rw [State.advance_last hlast]
    exact ((h.withTx _).offer sentinel).goto (by decide)
  · rw [State.advance_next hlast]
    exact ((h.withTx _).offerFrame _).goto (by decide)

/-- R173: a positive match goes on, a negative one is a failed attempt, and STRAY_POLICY decides on the rest. -/
theorem SessionStep.senderRxDeliver (s : State) (st : Status) (m : List Byte) :
    SessionStep s (Machine.senderRxDeliver st m s) := by
  have hsame := GoesOn.refl s
  unfold Machine.senderRxDeliver
  split
  · exact .goesOn hsame
  · split
    · exact .goesOn (hsame.setTxLast .acked).advance
    · exact .failAttempt ((hsame.cntInc .nak).setTxLast .nak) .nak
    · exact .stray s .unmatched
    · exact .stray s .notAnAck

/-- R178: the sentinel's `TxDone` ends the session either way. -/
theorem SessionStep.sentinelTxDone (s : State) (st : Status) : SessionStep s (Machine.sentinelTxDone st s) := by
  cases st with
  | ok => exact .finished ((GoesOn.refl s).cntInc .txmsg) (by decide)
  | fail => exact .finished (((GoesOn.refl s).cntInc .txerr).setFlag (by decide)) (by decide)

/-- R215: the sentinel ends the session, whether a frame is missing or not. -/
theorem SessionStep.complete (s : State) : SessionStep s s.complete := by
  have hlast := (GoesOn.refl s).setRxLast .sentinel 0 0
  simp only [State.complete]
  split
  · exact .finished (((hlast.memWrite .out 0 _).withRx _).setMissing _ _) (by decide)
  · split
    · exact .finished (hlast.setMissing _ _) (by decide)
    · exact .finished (hlast.setMissing _ _) (by decide)

theorem GoesOn.learnTotal (h : GoesOn s t) (n : BitVec 16) : GoesOn s (t.learnTotal n) := by
  unfold State.learnTotal
  split
  · exact h.withRx _
  · exact h

/-- R214: the kinds of arrival have flags of their own. -/
theorem GoesOn.detect (h : GoesOn s t) (i : BitVec 16) : GoesOn s (t.detect i) := by
  unfold State.detect
  split
  · exact ((h.cntInc .dup).setFlag (by decide)).withRx _
  · exact h.withRx _
  · exact ((h.cntInc .ooo).setFlag (by decide)).withRx _

/-- R207, R211, R212: a frame is answered, and each cause of a refusal has a flag of its own. -/
theorem GoesOn.takeFrame (s : State) (F : Frame) : GoesOn s (s.takeFrame F) := by
  have hsame := GoesOn.refl s
  unfold State.takeFrame
  split
  · exact ((((hsame.cntInc .csum).setFlag (by decide)).setRxLast _ _ _).offer _).goto (by decide)
  · split
    · exact ((((hsame.cntInc .reject).setFlag (by decide)).setRxLast _ _ _).offer _).goto (by decide)
    · have hstored := (((hsame.learnTotal F.totalChunks).detect F.chunkId).writeSlot F.chunkId F.data).cntInc .rxok
      exact ((hstored.setRxLast _ _ _).offer _).goto (by decide)

/-- R204, R205: only the sentinel ends a receive session. -/
theorem SessionStep.receiverRxDeliver (s : State) (st : Status) (m : List Byte) :
    SessionStep s (Machine.receiverRxDeliver st m s) := by
  unfold Machine.receiverRxDeliver
  split
  · exact .goesOn (.refl s)
  · split
    · exact .complete s
    · split
      · exact .goesOn ((((GoesOn.refl s).cntInc .malformed).setFlag (by decide)).setRxLast _ _ _)
      · exact .goesOn (.takeFrame s _)

theorem SessionStep.rxDeliver {st : Status} {m : List Byte} (ht : Machine.rxDeliver st m s = .next t) :
    SessionStep s t := by
  rcases rxDeliver_cases ht with ⟨-, rfl⟩ | ⟨-, rfl⟩
  · exact .senderRxDeliver s st m
  · exact .receiverRxDeliver s st m

/-- R217: the answer of a frame was sent, or could not be. -/
theorem GoesOn.receiverTxDone (s : State) (st : Status) : GoesOn s (Machine.receiverTxDone st s) := by
  cases st with
  | ok => exact ((GoesOn.refl s).cntInc .txmsg).goto (by decide)
  | fail => exact (((GoesOn.refl s).cntInc .txerr).setFlag (by decide)).goto (by decide)

theorem SessionStep.txDone {st : Status} (ht : Machine.txDone st s = .next t) : SessionStep s t := by
  have hsame := GoesOn.refl s
  rcases txDone_cases ht with ⟨-, ⟨-, rfl⟩ | ⟨-, rfl⟩⟩ | ⟨-, rfl⟩ | ⟨-, rfl⟩
  · exact .goesOn (((hsame.cntInc .txmsg).setTxTimer _).goto (by decide))
  · exact .failAttempt (((hsame.cntInc .txerr).setFlag (by decide)).setTxLast .txFail) .txFail
  · exact .sentinelTxDone s st
  · exact .goesOn (.receiverTxDone s st)

/-- R241: in IDLE an `ABORT` does nothing, elsewhere it ends the session with CANCELLED. -/
theorem SessionStep.runAbort (s : State) : SessionStep s (Machine.runAbort s) := by
  unfold Machine.runAbort
  split
  · exact .goesOn (.refl s)
  all_goals exact .finished (.of_flags id rfl) (by decide)

/-! ## The host's accesses -/

/-- All one event can do to FLAGS, RESULT and the end of a session. -/
inductive EventEffect (e : Event) (s : State) : State → Prop
  | session {t : State} (h : SessionStep s t) : EventEffect e s t
  | startRefused (hidle : s.engine = .idle) (d : BitVec 8) : EventEffect e s (s.refuseStart d)
  | flagsWritten (v : Word) (he : e = .hostWrite 0x24 v) : EventEffect e s (s.clearFlagsWritten v)
  | cleared (hidle : s.engine = .idle) (he : e = commandWrite (encode .clear)) : EventEffect e s (runClear s)
  | reset (he : e = .reset) : EventEffect e s s.resetEvent

/-! The codec and acknowledgement commands write no flag (R120 to R123, R146 to R149). -/

theorem runChecksum_flags (s : State) : (runChecksum s).flags = s.flags := by
  unfold runChecksum
  split
  · rfl
  · rfl

theorem runEncode_flags (s : State) : (runEncode s).flags = s.flags := by
  unfold runEncode
  split
  · rfl
  · split
    · rfl
    · rfl
    · rfl

theorem runDecode_flags (s : State) : (runDecode s).flags = s.flags := by
  unfold runDecode
  split
  · rfl
  · split
    · rfl
    · rfl

theorem runFragment_flags (s : State) : (runFragment s).flags = s.flags := by
  simp only [runFragment]
  split_ifs <;> rfl

theorem runDecAck_flags (s : State) : (runDecAck s).flags = s.flags := by
  unfold runDecAck
  split
  · rfl
  · split
    · rfl
    · split_ifs <;> rfl

theorem runIsSentinel_flags (s : State) : (runIsSentinel s).flags = s.flags := by
  unfold runIsSentinel
  split_ifs <;> rfl

theorem HostReg.offset_cmd {off : BitVec 8} (h : HostReg.ofOffset off = some .cmd) : off = 0x04 := by
  unfold HostReg.ofOffset at h
  split at h
  case h_2 hoff => exact BitVec.eq_of_toNat_eq hoff
  all_goals cases h

theorem HostReg.offset_flags {off : BitVec 8} (h : HostReg.ofOffset off = some .flags) : off = 0x24 := by
  unfold HostReg.ofOffset at h
  split at h
  case h_10 hoff => exact BitVec.eq_of_toNat_eq hoff
  all_goals cases h

theorem GoesOn.writeConfig (s : State) (f : ConfigRegs → ConfigRegs) : GoesOn s (s.writeConfig f) := by
  unfold State.writeConfig
  split
  · exact .of_flags id rfl
  · exact .hostError s

theorem GoesOn.writePort (s : State) (v : Word) : GoesOn s (s.writePort v) := by
  simp only [State.writePort]
  split
  · exact (GoesOn.hostError s).portAdvance
  · split
    · exact (GoesOn.hostError s).portAdvance
    · exact ((GoesOn.refl s).memWrite _ _ _).portAdvance

theorem GoesOn.hostRead (s : State) (off : BitVec 8) : GoesOn s (Machine.hostRead off s) := by
  unfold Machine.hostRead
  split
  · exact (GoesOn.hostError s).replyWith 0
  · simp only [State.readPort]
    split
    · exact (GoesOn.hostError s).portAdvance.replyWith 0
    · exact (GoesOn.refl s).portAdvance.replyWith _
  · exact (GoesOn.refl s).replyWith _

namespace EventEffect

theorem goesOn (h : GoesOn s t) : EventEffect e s t := .session (.goesOn h)

/-- R82: an IDLE-only command is refused elsewhere with CMD_ERR. -/
theorem whenIdle {run : State → State} (hrun : s.engine = .idle → EventEffect e s (run s))
    (ht : s.whenIdle run = .next t) : EventEffect e s t := by
  rcases State.whenIdle_cases ht with ⟨hidle, rfl⟩ | ⟨-, rfl⟩
  · exact hrun hidle
  · exact goesOn (.refuseCommand s)

theorem runStartSend (hidle : s.engine = .idle) : EventEffect e s (runStartSend s) := by
  unfold Machine.runStartSend
  split
  · exact .startRefused hidle _
  · exact goesOn (.of_begun (by simp [State.beginSend]) (by simp [State.beginSend, State.offerFrame]))

theorem runStartRecv (hidle : s.engine = .idle) : EventEffect e s (runStartRecv s) := by
  unfold Machine.runStartRecv
  split
  · exact .startRefused hidle _
  · exact goesOn (.of_begun (by simp [State.beginRecv]) rfl)

/-- A command that works on the scratch registers. -/
theorem scratch {run : State → State} (hrun : Undisturbed s (run s)) (hflags : (run s).flags = s.flags)
    (ht : s.whenIdle run = .next t) : EventEffect e s t :=
  whenIdle (fun _ => goesOn (.of_undisturbed hrun hflags)) ht

theorem exec {i : Instr} (he : e = commandWrite (encode i)) (ht : exec i s = .next t) : EventEffect e s t := by
  cases i with
  | nop => cases ht; exact goesOn (.refl s)
  | abort => cases ht; exact .session (.runAbort s)
  | startSend => exact whenIdle runStartSend ht
  | startRecv => exact whenIdle runStartRecv ht
  | clear => exact whenIdle (fun hidle => .cleared hidle he) ht
  | opChecksum => exact scratch (.runChecksum s) (runChecksum_flags s) ht
  | opEncode => exact scratch (.runEncode s) (runEncode_flags s) ht
  | opDecode => exact scratch (.runDecode s) (runDecode_flags s) ht
  | opFragment => exact scratch (.runFragment s) (runFragment_flags s) ht
  | opEncAck => exact scratch (run := runEncAck) (.writeMsg s _) rfl ht
  | opDecAck => exact scratch (.runDecAck s) (runDecAck_flags s) ht
  | opEncSentinel => exact scratch (run := runEncSentinel) (.writeMsg s _) rfl ht
  | opIsSentinel => exact scratch (.runIsSentinel s) (runIsSentinel_flags s) ht

theorem issueCommand {v : Word} (he : e = commandWrite v) (ht : issueCommand v s = .next t) : EventEffect e s t := by
  unfold Machine.issueCommand at ht
  split at ht
  · cases ht
    exact goesOn (.refuseCommand s)
  · rename_i i hdecode
    rcases decodeWord_cases v with ⟨-, herror⟩ | ⟨-, -, herror⟩ | ⟨j, rfl, hok⟩
    · cases herror.symm.trans hdecode
    · cases herror.symm.trans hdecode
    · cases hok.symm.trans hdecode
      exact exec he ht

theorem hostWrite {off : BitVec 8} {v : Word} (ht : hostWrite off v s = .next t) :
    EventEffect (.hostWrite off v) s t := by
  unfold Machine.hostWrite at ht
  split at ht
  · cases ht
    exact goesOn (.hostError s)
  · rename_i r hoff
    cases r with
    | cmd =>
      cases HostReg.offset_cmd hoff
      exact issueCommand rfl ht
    | flags =>
      cases HostReg.offset_flags hoff
      cases ht
      exact .flagsWritten v rfl
    | bufData => cases ht; exact goesOn (.writePort s v)
    | cfg | chunkSize | maxRetries | ackTimeout | payloadLen => cases ht; exact goesOn (.writeConfig s _)
    | fChunkId | fTotal | fChecksum | fLen | msgLen | ackCtrl | ackExpect | bufSel | bufAddr =>
      cases ht
      exact goesOn (.of_flags id rfl)
    | _ => cases ht; exact goesOn (.hostError s)

theorem perform (ht : perform e s = .next t) : EventEffect e s t := by
  cases e with
  | reset => cases ht; exact .reset rfl
  | hostWrite off v => exact hostWrite ht
  | hostRead off => cases ht; exact goesOn (.hostRead s off)
  | tick => cases ht; exact .session (.tick s)
  | rxDeliver st m => exact .session (.rxDeliver ht)
  | txDone st => exact .session (.txDone ht)

end EventEffect

/-- A step is the effect of the event taken, or no event waits. -/
theorem step_effect (ht : step s = .next t) :
    t = s ∨ ∃ e rest, s.inputs.head? = some e ∧ EventEffect e { s with inputs := rest, reply := none } t := by
  rcases step_cases ht with ⟨-, rfl⟩ | ⟨e, rest, hinputs, hperform⟩
  · exact .inl rfl
  · exact .inr ⟨e, rest, by rw [hinputs]; rfl, .perform hperform⟩

/-! ## What the flags say -/

/-- R263: `finish` sets DONE and no other flag. -/
theorem State.hasFlag_finish (f : Flag) (code : ResultCode) (detail : BitVec 8) (s : State) :
    (s.finish code detail).hasFlag f = (s.hasFlag f || decide (f = .done)) :=
  State.hasFlag_setFlag .done f _

/-- R62: a write to FLAGS clears the flags whose bit is 1. -/
theorem State.hasFlag_clearFlagsWritten (f : Flag) (v : Word) (s : State) :
    (s.clearFlagsWritten v).hasFlag f = (s.hasFlag f && !v.getLsbD f.bit) := by
  have hbit : f.bit < 10 := by cases f <;> decide
  simp [State.hasFlag, hbit]

theorem EventEffect.done_rises (h : EventEffect e s t) (hs : s.hasFlag .done = false) (ht : t.hasFlag .done = true) :
    t.engine = .idle ∧ t.result.code ≠ .none := by
  cases h with
  | session h =>
    cases h with
    | goesOn h => exact absurd (h.done ht) (by simp [hs])
    | finished _ hcode => exact ⟨rfl, hcode.1⟩
  | startRefused hidle d => exact ⟨hidle, ResultCode.noConfusion⟩
  | flagsWritten v => simp [State.hasFlag_clearFlagsWritten, hs] at ht
  | cleared => exact absurd ht (show ¬ (0#10).getLsbD 0 = true by decide)
  | reset => exact absurd ht (show ¬ (0#10).getLsbD 0 = true by decide)

theorem EventEffect.session_ends (h : EventEffect e s t) (hreset : e ≠ .reset) (hs : s.engine ≠ .idle)
    (ht : t.engine = .idle) :
    t.hasFlag .done = true ∧ t.tx.timer = 0 ∧ t.result.code ≠ .none ∧ t.result.code ≠ .cfgError := by
  cases h with
  | session h =>
    cases h with
    | goesOn h => exact absurd (h.engine ht) hs
    | finished _ hcode => exact ⟨by simp [State.hasFlag_finish], rfl, hcode⟩
  | startRefused hidle => exact absurd hidle hs
  | flagsWritten => exact absurd ht hs
  | cleared hidle => exact absurd hidle hs
  | reset he => exact absurd he hreset

theorem EventEffect.error_cleared {f : Flag} (h : EventEffect e s t) (hf : f = .cmdErr ∨ f = .hostErr)
    (hs : s.hasFlag f = true) (ht : t.hasFlag f = false) :
    e = .reset ∨ (∃ v : Word, e = .hostWrite 0x24 v ∧ v.getLsbD f.bit = true) ∨
      s.engine = .idle ∧ e = commandWrite (encode .clear) := by
  have hnot {u : State} (hkept : ErrorsKept s u) (hu : u.hasFlag f = false) : False := by
    simp [hkept f hf hs] at hu
  cases h with
  | session h =>
    cases h with
    | goesOn h => exact (hnot h.errors ht).elim
    | finished h =>
      rw [State.hasFlag_finish, h.errors f hf hs] at ht
      cases ht
  | startRefused _ d => exact (hnot ((ErrorsKept.of_flags rfl).setFlag .done) ht).elim
  | flagsWritten v he => exact .inr (.inl ⟨v, he, by simpa [State.hasFlag_clearFlagsWritten, hs] using ht⟩)
  | cleared hidle he => exact .inr (.inr ⟨hidle, he⟩)
  | reset he => exact .inl he

/-- Settles O39: DONE rises in `finish` and in a refused start, which is taken in IDLE alone. -/
theorem doneRisesOnlyWithTerminalOutcome : Obligations.DoneRisesOnlyWithTerminalOutcome := by
  unfold Obligations.DoneRisesOnlyWithTerminalOutcome
  intro s t ht hbefore hafter
  rcases step_effect ht with rfl | ⟨e, rest, -, heffect⟩
  · cases hbefore.symm.trans hafter
  · exact heffect.done_rises hbefore hafter

/-- Settles O42: of all events but `Reset`, only one that ends in `finish` leads from a session to IDLE. -/
theorem sessionEndsThroughFinish : Obligations.SessionEndsThroughFinish := by
  unfold Obligations.SessionEndsThroughFinish
  intro s t hbusy hreset ht hidle
  rcases step_effect ht with rfl | ⟨e, rest, hhead, heffect⟩
  · exact absurd hidle hbusy
  · exact heffect.session_ends (fun he => hreset (he ▸ hhead)) hbusy hidle

/-- Settles O43: every other effect keeps CMD_ERR and HOST_ERR. -/
theorem errorFlagsStayUntilCleared : Obligations.ErrorFlagsStayUntilCleared := by
  unfold Obligations.ErrorFlagsStayUntilCleared
  intro s t k hk ht hbefore hafter
  obtain ⟨f, hf, rfl⟩ : ∃ f : Flag, (f = .cmdErr ∨ f = .hostErr) ∧ f.bit = k := by
    rcases hk with rfl | rfl
    · exact ⟨.cmdErr, .inl rfl, rfl⟩
    · exact ⟨.hostErr, .inr rfl, rfl⟩
  rcases step_effect ht with rfl | ⟨e, rest, hhead, heffect⟩
  · cases hbefore.symm.trans hafter
  · rw [hhead]
    simpa only [Option.some.injEq] using heffect.error_cleared hf hbefore hafter

end Sys2Proof.Machine

/-! PROOFS. `Reset` (spec/70_reset_and_hazards.md R300, R301): what each way to observe the block reads right after it. -/

namespace Sys2Proof.Machine

/-- R300: CFG.IRQ_EN is 0, so the line is low whatever FLAGS holds. -/
theorem State.irq_resetEvent (s : State) : s.resetEvent.irq = false := Bool.and_false _

/-- No register shows what `Reset` keeps (the parameters, the waiting events) or counts, so each reads as it does after
the first `Reset`. -/
theorem State.readReg_resetEvent_eq_reset (s : State) (r : HostReg) :
    s.resetEvent.readReg r = State.reset.readReg r := by
  cases r <;> rfl

/-- The table of R300, evaluated row by row: `ID` is a constant, two registers start with FFFF in their id field, the
others start at 0. -/
theorem State.readReg_reset (r : HostReg) :
    State.reset.readReg r =
      if r = .id then 0x43540100 else if r = .txFailId ∨ r = .rxMissing then 0x0000FFFF else 0 := by
  cases r <;> decide

/-- R300: no slot is listed, so no valid bit is 1. -/
theorem State.valid_resetEvent (s : State) (i : Nat) : s.resetEvent.valid i = false := rfl

/-- No address of any buffer is listed as written. -/
theorem Buffers.get?_unwritten (b : Buffer) (a : Nat) : Sparse.get? a (Buffers.unwritten.get b) = none := by
  cases b <;> exact Sparse.get?_nil a

/-- R301: every byte is the draw of this `Reset`. -/
theorem State.byteAt_resetEvent (s : State) (b : Buffer) (a : Nat) :
    s.resetEvent.byteAt b a = Config.resetDraw s.resetEvent.resets b a := by
  have hnone : Sparse.get? a (s.resetEvent.bufs.get b) = none := Buffers.get?_unwritten b a
  rw [State.byteAt, hnone, Option.getD_none]

/-- Settles O38: the state after `Reset`, observed register by register, bit by bit and byte by byte. -/
theorem resetValues : Obligations.ResetValues := by
  unfold Obligations.ResetValues
  intro s
  exact ⟨s.resetEvent, rfl, rfl, s.irq_resetEvent,
    fun r _ => (s.readReg_resetEvent_eq_reset r).trans (State.readReg_reset r), s.valid_resetEvent,
    s.byteAt_resetEvent, rfl, rfl⟩

end Sys2Proof.Machine
